-- ==== Sys2Proof/Word.lean ====
section
/-! DEFINITION. The word types of the core (00_scope.md R11): bit patterns of a fixed width. Whether a pattern is read as
signed (two's complement, `BitVec.toInt`) or unsigned (`BitVec.toNat`) is said at each use; the names below only tell the
reader which reading the spec gives the register. -/

namespace Sys2Proof

/-- `u8`, R11: an unsigned byte (a data byte, a draw). -/
abbrev U8 := BitVec 8
/-- `u16`, R11: an unsigned 16-bit value (an envelope field, a sample length). -/
abbrev U16 := BitVec 16
/-- `u17`, R11 and R10 (`POS_W`): a byte offset from `base`, 0 to 65536. -/
abbrev U17 := BitVec 17
/-- `s8`, R11: a signed byte (a sample, a step size, a coefficient). -/
abbrev S8 := BitVec 8
/-- `s16`, R11: a signed 16-bit value (filter history, an output slot). -/
abbrev S16 := BitVec 16
/-- `s32`, R11: a signed 32-bit value (the treble amplitude). -/
abbrev S32 := BitVec 32

end Sys2Proof
end

