-- ==== Sys2Proof/Config.lean ====
section
/-! DEFINITION. What an implementation fixes (00_scope.md R10, 93_implementation_defined.md U16 and U17) and the free
values: constants with no body, so that no proof can know one. -/

namespace Sys2Proof

/-- The two readings of "signed 16x8 to 16-bit with the specified post-shift" (42_tone_filter.md R122, conflict C12,
decision D18): the whole product is shifted, or the product is cut to 16 bits before its shift. -/
inductive ProductReading where
  | fullProduct
  | productCutTo16
  deriving DecidableEq, Repr

/-- The parameters of a core (R10). The defaults are the spec's. A machine state carries its `Config`, since the
interface's step takes a state alone; no step changes it, so a statement about every state holds for every core. -/
structure Config where
  /-- `ADDR_W`: bits of a sample-memory byte address; parameter, default 16 (R10, D4). DESIGN CHOICE, safe: log entry 1. -/
  addrW : Nat := 16
  /-- `MOD_RESET`: the value of `modifier` after `TRIGGER`; parameter, default 0 (R10, D9). Log entry 4. -/
  modReset : S8 := 0
  /-- The reading of the filter's product width (R122); the spec decides for the full product. Log entry 3. -/
  product : ProductReading := .fullProduct
  deriving DecidableEq, Repr

/-- `NULL_BASE` (R10, R60): the `sample_base` that means "null data". -/
def nullBase : Nat := 0

/-- The answer of the pseudo-random port to draw number `n`, where no answer is fixed from outside: a free input under no
law (20_memory.md R56, U2). FREE VALUE, safe: log entry 5. -/
opaque Config.freeDraw : Nat → U8

/-- What a slot holds after a reset abandoned a block (70_reset_and_hazards.md R180, U4), by a running number.
FREE VALUE, safe: log entry 17. -/
opaque Config.freeSlot : Nat → S16

/-- How many of its accesses a block had made when a reset abandoned it (R180), by the number of the abandoned block; the
use bounds it by the block's own number of accesses. FREE VALUE, safe: log entry 17. -/
opaque Config.freeAccessesMade : Nat → Nat

end Sys2Proof
end

