-- ==== Sys2Proof/Syntax.lean ====
section
/-! DEFINITION. The instructions of the core (00_scope.md R3): the four delta symbols and the two host commands, one
constructor for each row of spec/opcode_table.json, and the operand of `TRIGGER`. -/

namespace Sys2Proof

/-- The voice definition `VD` (10_state.md R21, 30_encoding.md R71), the operand of `TRIGGER`, fields in the spec's order.
`sampleBase` is a number because its width `ADDR_W` is a parameter; well-formed means that it fits. -/
structure VoiceDef where
  initial    : U16
  increment  : U16
  a2         : S8
  a3         : S8
  b1         : S8
  b2         : S8
  b3         : S8
  sampleBase : Nat
  sampleLen  : U16
  deriving DecidableEq, Repr

/-- One constructor for each row of the opcode table. -/
inductive Instr where
  /-- Symbol 0 (R96). -/
  | keep
  /-- Symbol 1 (R97). -/
  | neg
  /-- Symbol 2 (R98). -/
  | dbl
  /-- Symbol 3 (R99). -/
  | hlv
  /-- Command 0 with its operand record (R145). -/
  | trigger (vd : VoiceDef)
  /-- Command 1 (R146). -/
  | decodeBlock
  deriving DecidableEq, Repr

/-- A delta symbol on its own (R73): what the symbol decoder answers and `DeltaGet` runs. -/
inductive DeltaSymbol where
  | keep
  | neg
  | dbl
  | hlv
  deriving DecidableEq, Repr

/-- The instruction a symbol is. -/
def DeltaSymbol.toInstr : DeltaSymbol → Instr
  | .keep => .keep
  | .neg  => .neg
  | .dbl  => .dbl
  | .hlv  => .hlv

end Sys2Proof
end

