-- ==== Sys2Proof/WellFormed.lean ====
section
/-! DEFINITION. Which instructions an encoding can stand for. Every value of every field of `VD` is legal (30_encoding.md
R71), so the one check is that `sample_base` fits the `ADDR_W` bits of its field. -/

namespace Sys2Proof

/-- The field `sample_base` is `ADDR_W` bits wide (R71). -/
def VoiceDef.fits (cfg : Config) (vd : VoiceDef) : Bool :=
  decide (vd.sampleBase < 2 ^ cfg.addrW)

/-- An instruction the encodings of 30_encoding.md can express on a core with these parameters. -/
def Instr.wellFormed (cfg : Config) : Instr → Bool
  | .keep        => true
  | .neg         => true
  | .dbl         => true
  | .hlv         => true
  | .trigger vd  => vd.fits cfg
  | .decodeBlock => true

end Sys2Proof
end

