-- ==== Sys2Proof/Decode.lean ====
section
/-! DEFINITION. The decoders (30_encoding.md): a 2-bit symbol (format SYM2), a data byte of four symbols (SYM4), a command
code with its operand lines (CMD and VDREC); after them the encoder. There is no illegal encoding (R79), so the port
decoders are total; the word decoder rejects by name what is no word of a format. -/

namespace Sys2Proof

/-- The two formats of an instruction (30_encoding.md R70 and R73). -/
inductive Format where
  /-- 2 bits, no operand. -/
  | sym2
  /-- A 1-bit code with the operand lines beside it. -/
  | cmd
  deriving DecidableEq, Repr

/-- A symbol code in bits 1:0 (R73). All four codes are defined. -/
def decodeSymbol (code : BitVec 2) : DeltaSymbol :=
  if code = 0b00#2 then .keep
  else if code = 0b01#2 then .neg
  else if code = 0b10#2 then .dbl
  else .hlv

/-- Symbol `k` of a data byte, `k` = 0 first: bits `2k+1:2k` (R57, R72). -/
def symbolCode (b : U8) (k : Nat) : BitVec 2 :=
  (b >>> (2 * k)).setWidth 2

/-- The four symbols of a data byte in execution order, least significant pair first (R72). -/
def decodeSymbolByte (b : U8) : List DeltaSymbol :=
  [decodeSymbol (symbolCode b 0), decodeSymbol (symbolCode b 1),
   decodeSymbol (symbolCode b 2), decodeSymbol (symbolCode b 3)]

/-- The lowest `w` lines of a record, and the lines above them. -/
def takeField (w : Nat) (record : Nat) : Nat × Nat :=
  (record % 2 ^ w, record / 2 ^ w)

/-- The operand record VDREC (R71) read from its lines, `88 + ADDR_W` of them; lines above are not there and are ignored.
The fields stand in the spec's order, the first in the lowest bits. DESIGN CHOICE, safe: the spec gives the order and the
widths and presents the fields in parallel, it gives no bit positions (log entry 9). -/
def decodeVoiceDef (addrW : Nat) (record : Nat) : VoiceDef :=
  let f0 := takeField 16 record
  let f1 := takeField 16 f0.2
  let f2 := takeField 8 f1.2
  let f3 := takeField 8 f2.2
  let f4 := takeField 8 f3.2
  let f5 := takeField 8 f4.2
  let f6 := takeField 8 f5.2
  let f7 := takeField addrW f6.2
  let f8 := takeField 16 f7.2
  { initial    := BitVec.ofNat 16 f0.1
    increment  := BitVec.ofNat 16 f1.1
    a2         := BitVec.ofNat 8 f2.1
    a3         := BitVec.ofNat 8 f3.1
    b1         := BitVec.ofNat 8 f4.1
    b2         := BitVec.ofNat 8 f5.1
    b3         := BitVec.ofNat 8 f6.1
    sampleBase := f7.1
    sampleLen  := BitVec.ofNat 16 f8.1 }

/-- A command as it stands on the command port (R70): the code, and the operand lines, which only `TRIGGER` reads.
Both codes are defined, so this is total. -/
def decodeCommand (addrW : Nat) (cmd : BitVec 1) (operand : Nat) : Instr :=
  if cmd = 0#1 then .trigger (decodeVoiceDef addrW operand) else .decodeBlock

/-- Why a word is no instruction of its format. -/
inductive DecodeError where
  /-- The code has bits above the format's width (2 for a symbol, 1 for a command). -/
  | codeTooWide
  /-- The operand record has bits above its `88 + ADDR_W` lines (R71). -/
  | operandTooWide
  /-- A symbol has no operand (R73); lines beside it are not part of it. -/
  | symbolWithOperand
  deriving DecidableEq, Repr

/-- An instruction written as numbers: its format, its code, and its operand record (0 where it has none). -/
structure Encoded where
  format  : Format
  code    : Nat
  operand : Nat
  deriving DecidableEq, Repr

/-- The bits of an operand record (R71). -/
def operandWidth (addrW : Nat) : Nat := 88 + addrW

/-- The decoder of written instructions: total, and rejecting by name. -/
def decode (cfg : Config) (e : Encoded) : Except DecodeError Instr :=
  match e.format with
  | .sym2 =>
    if 2 ^ 2 ≤ e.code then .error .codeTooWide
    else if e.operand ≠ 0 then .error .symbolWithOperand
    else .ok (decodeSymbol (BitVec.ofNat 2 e.code)).toInstr
  | .cmd =>
    if 2 ^ 1 ≤ e.code then .error .codeTooWide
    else if 2 ^ operandWidth cfg.addrW ≤ e.operand then .error .operandTooWide
    else .ok (decodeCommand cfg.addrW (BitVec.ofNat 1 e.code) e.operand)

/-! ### The encoder -/

/-- The lines of a record from its fields, each a width and a value, the first in the lowest bits. -/
def packFields : List (Nat × Nat) → Nat
  | []           => 0
  | (w, v) :: fs => v % 2 ^ w + 2 ^ w * packFields fs

/-- The fields of VDREC with their widths, in the spec's order (R71). -/
def VoiceDef.fields (addrW : Nat) (vd : VoiceDef) : List (Nat × Nat) :=
  [(16, vd.initial.toNat), (16, vd.increment.toNat), (8, vd.a2.toNat), (8, vd.a3.toNat), (8, vd.b1.toNat),
   (8, vd.b2.toNat), (8, vd.b3.toNat), (addrW, vd.sampleBase), (16, vd.sampleLen.toNat)]

/-- The operand record of a voice definition (R71). -/
def encodeVoiceDef (addrW : Nat) (vd : VoiceDef) : Nat := packFields (vd.fields addrW)

/-- The words of an instruction (R70, R71, R73). -/
def encode (cfg : Config) : Instr → Encoded
  | .keep        => { format := .sym2, code := 0b00, operand := 0 }
  | .neg         => { format := .sym2, code := 0b01, operand := 0 }
  | .dbl         => { format := .sym2, code := 0b10, operand := 0 }
  | .hlv         => { format := .sym2, code := 0b11, operand := 0 }
  | .trigger vd  => { format := .cmd, code := 0, operand := encodeVoiceDef cfg.addrW vd }
  | .decodeBlock => { format := .cmd, code := 1, operand := 0 }

/-- The 2-bit code of a symbol (R73). -/
def DeltaSymbol.code : DeltaSymbol → BitVec 2
  | .keep => 0b00#2
  | .neg  => 0b01#2
  | .dbl  => 0b10#2
  | .hlv  => 0b11#2

/-- A data byte from four symbols in execution order (R72). -/
def encodeSymbolByte (s0 s1 s2 s3 : DeltaSymbol) : U8 := s3.code ++ s2.code ++ s1.code ++ s0.code

/-- The data bytes of a sample written as symbols, packed four to a byte; a final byte with fewer than four is filled with
`KEEP` (R82). -/
def packSymbols : List DeltaSymbol → List U8
  | []                            => []
  | [s0]                          => [encodeSymbolByte s0 .keep .keep .keep]
  | [s0, s1]                      => [encodeSymbolByte s0 s1 .keep .keep]
  | [s0, s1, s2]                  => [encodeSymbolByte s0 s1 s2 .keep]
  | s0 :: s1 :: s2 :: s3 :: rest  => encodeSymbolByte s0 s1 s2 s3 :: packSymbols rest

/-! ### Table words

spec/opcode_table.json numbers two separate decode spaces from 0: symbols (2 bits) and commands (1 bit). -/

/-- Which format a table word of `nbits` bits belongs to. A width of 1 is a command and a width of 2 a symbol. In a
whole byte both spaces lie on top of each other: there 0 and 1 are taken as the two command codes and every other value
as a data byte, whose first symbol is the instruction. DESIGN CHOICE, safe: log entry 11. -/
def tableFormat (nbits w : Nat) : Option Format :=
  if 2 ^ nbits ≤ w then none
  else if nbits = 1 then some .cmd
  else if nbits = 2 then some .sym2
  else if nbits = 8 then (if w < 2 then some .cmd else some .sym2)
  else none

/-- The instruction this decoder reads from a table word; the operand lines above the word are 0. -/
def decodeTableWord (nbits w : Nat) : Option Instr :=
  match tableFormat nbits w with
  | none       => none
  | some .cmd  => some (decodeCommand ({} : Config).addrW (BitVec.ofNat 1 w) 0)
  | some .sym2 => some (decodeSymbol (symbolCode (BitVec.ofNat 8 w) 0)).toInstr

end Sys2Proof
end

