-- ==== Sys2Proof/Machine/State.lean ====
section
/-! DEFINITION. The state of the machine: every register of 10_state.md under the spec's own name, the output block buffer,
sample memory, the history of port events, the core's parameters, and the inputs the outside world has still to give. -/

namespace Sys2Proof.Machine

/-- Sample memory (20_memory.md R50): bytes by address, in one canonical form (`Memory.wf` in Ops.lean). -/
abbrev Memory := List Host.Cell

/-- What a byte of sample memory reads as where the host has placed none. DESIGN CHOICE, unsafe: the spec gives no content;
a read always succeeds (R51). Log entry 8. -/
def Memory.blank : U8 := 0

/-- One access at a port (00_scope.md R8, 20_memory.md R64). -/
inductive Event where
  /-- `SampleRead(a)` answered the byte (R51). -/
  | sampleRead (a : Nat) (value : U8)
  /-- `RngByte()` answered the byte (R56). -/
  | rngByte (value : U8)
  /-- A read of slot `i` of `BUF` and the write after it (R139, R64). -/
  | bufPair (i : Fin 8) (read written : S16)
  /-- The host read slot `i` (30_encoding.md R82 `READ`). -/
  | hostRead (i : Fin 8) (value : S16)
  deriving DecidableEq, Repr

/-- What the host can do to the core between two commands (00_scope.md R9, 10_state.md R28, 70_reset_and_hazards.md R180
and R182, R185). -/
inductive HostAction where
  /-- Present a command: the code and the operand lines (R70, R71, R155). -/
  | command (cmd : BitVec 1) (operand : Nat)
  /-- Write a slot of `BUF` (R28; `ZERO` of R82 is eight of these). -/
  | writeSlot (i : Fin 8) (v : S16)
  /-- Read a slot of `BUF` (R28; `READ` of R82 is eight of these). -/
  | readSlot (i : Fin 8)
  /-- Place a byte in sample memory (R9, R63, R182); on a byte of an active sample it is refused (R183). -/
  | writeSample (a : Nat) (b : U8)
  /-- Assert `rst` between two commands (R180). -/
  | reset
  /-- Assert `rst` together with a command: the command is ignored (R180, R164). -/
  | resetWithCommand (cmd : BitVec 1) (operand : Nat)
  /-- Assert `rst` while the command runs: the command is abandoned (R180). -/
  | resetDuringCommand (cmd : BitVec 1) (operand : Nat)
  deriving DecidableEq, Repr

/-- The reasons the machine stops with a fault: none. The core raises no exception and no error (60_exceptions.md R160,
R161), every sample-space read succeeds (R51) and every address exists (R52), so nothing raises one and the type has no
constructor. Safe: it adds no behaviour. -/
inductive Fault where
  deriving DecidableEq, Repr

/-- The reasons an operation gets no meaning. No instruction raises one. -/
inductive Refusal where
  /-- Raised by an arm of `exec` whose instruction has no meaning yet (there is none). Safe: the run stops. -/
  | notModelled (mnemonic : String)
  /-- `DeltaGetInactive` (R93, R102, R162): raised by the primitive `deltaGet` on an inactive decoder. No command reaches
  it. Safe: the operation gets no value. Log entry 20. -/
  | deltaGetInactive
  /-- Raised by the host's write to a byte of a sample that is bound and active: host misuse, which the spec gives no
  meaning (R63, R162, R183, D27, U10). Safe: the run stops. Log entry 15. -/
  | hostWriteToActiveSample
  deriving DecidableEq, Repr

/-- The machine. -/
@[ext]
structure State where
  /-- The core's parameters (R10); no step changes them. -/
  cfg : Config
  /-- R22: byte address of the bound sample's header byte. -/
  base : Nat
  /-- R22, R24: the read cursor, an offset from `base`. -/
  pos : U17
  /-- R22: the end cursor, an offset from `base`. -/
  end_pos : U17
  /-- R22: the symbols of the current byte not yet consumed, next in bits 1:0. -/
  byte_buf : U8
  /-- R22: the number of symbols left in `byte_buf`. -/
  sym_cnt : BitVec 3
  /-- R22: the last reconstructed sample. -/
  recon_1 : S8
  /-- R22: the reconstructed sample before that. -/
  recon_2 : S8
  /-- R22: the current step size. -/
  modifier : S8
  /-- R25: the coefficient of the previous output. -/
  a2 : S8
  /-- R25: the coefficient of the output before that. -/
  a3 : S8
  /-- R25: the coefficient of the current input. -/
  b1 : S8
  /-- R25: the coefficient of the previous input. -/
  b2 : S8
  /-- R25: the coefficient of the input before that. -/
  b3 : S8
  /-- R25: the previous input sample. -/
  xn_1 : S16
  /-- R25: the input sample before that. -/
  xn_2 : S16
  /-- R25: the previous output sample. -/
  yn_1 : S16
  /-- R25: the output sample before that. -/
  yn_2 : S16
  /-- R23: the treble amplitude, 8 fractional bits. -/
  treble_amp : S32
  /-- R23: the treble decrement step. -/
  treble_step : U16
  /-- R23: the newest decoded bass sample. -/
  bass_0 : S8
  /-- R23: the bass sample decoded before it. -/
  bass_1 : S8
  /-- R28: the output block buffer `BUF[0..7]`, the host's. -/
  buf : Vector S16 8
  /-- R50: the sample space, read-only to the core. -/
  sample_mem : Memory
  /-- R8, R64: the history of port events, oldest first. -/
  events : List Event
  /-- The MODEL's own: the host actions not yet taken (R185), next first. Log entry 12. -/
  host_in : List HostAction
  /-- The MODEL's own: the answers of the pseudo-random port fixed from outside (R56), next first. Log entry 5. -/
  rng_in : List U8
  /-- The MODEL's own: the number of draws made, the index of the next free draw. Log entry 5. -/
  rng_count : Nat
  /-- The MODEL's own: the number of abandoned blocks, the index of the next free values. Log entry 17. -/
  free_count : Nat
  deriving DecidableEq, Repr

/-- The machine right after reset (10_state.md R31, 70_reset_and_hazards.md R180): every core register 0, hence idle.
`buf` is not reset and the spec gives no content: 0 is a DESIGN CHOICE, unsafe, log entry 7. The model's own fields are
empty or 0, log entry 6. -/
def State.reset : State where
  cfg := {}
  base := 0
  pos := 0
  end_pos := 0
  byte_buf := 0
  sym_cnt := 0
  recon_1 := 0
  recon_2 := 0
  modifier := 0
  a2 := 0
  a3 := 0
  b1 := 0
  b2 := 0
  b3 := 0
  xn_1 := 0
  xn_2 := 0
  yn_1 := 0
  yn_2 := 0
  treble_amp := 0
  treble_step := 0
  bass_0 := 0
  bass_1 := 0
  buf := #v[0, 0, 0, 0, 0, 0, 0, 0]
  sample_mem := []
  events := []
  host_in := []
  rng_in := []
  rng_count := 0
  free_count := 0

end Sys2Proof.Machine
end

