-- ==== Sys2Proof/Machine/Ops.lean ====
section
/-! DEFINITION. The named operations every meaning is built from: the conversions and shifts of 00_scope.md R12 and R13,
sample memory, the pseudo-random port, the slots of `BUF`, and reset.

There is no operation that takes an exception and none that returns from one: the core raises none, saves nothing, changes
no mode and has no handler (60_exceptions.md R160, R163, R165, R166). -/

namespace Sys2Proof.Machine

/-! ### Conversions and shifts (R12, R13) -/

/-- `wrapS_N(z)`: the signed N-bit value congruent to `z` modulo 2^N (R12). -/
def wrapS (n : Nat) (z : Int) : BitVec n := BitVec.ofInt n z

/-- `wrapU_N(z)`: `z` modulo 2^N (R12). -/
def wrapU (n : Nat) (z : Nat) : Nat := z % 2 ^ n

/-- `z >> k` on an integer: the arithmetic right shift, floor of `z / 2^k` (R13). -/
def asr (z : Int) (k : Nat) : Int := z / 2 ^ k

/-- `lsr(v, k)`: the logical right shift, zeros entering at the top (R13). -/
def lsr {n : Nat} (v : BitVec n) (k : Nat) : BitVec n := v >>> k

/-! ### Outcomes -/

/-- Runs `f` on a next state; a fault or a refusal stays what it is. -/
def andThen (o : Host.Outcome State Fault Refusal) (f : State → Host.Outcome State Fault Refusal) :
    Host.Outcome State Fault Refusal :=
  match o with
  | .next s    => f s
  | .fault r   => .fault r
  | .refused r => .refused r

/-! ### The event history -/

/-- Appends one event (R8, R64). -/
def record (e : Event) (s : State) : State := { s with events := s.events ++ [e] }

/-- The event is a draw (R56). -/
def isDraw : Event → Bool
  | .rngByte _     => true
  | .sampleRead .. => false
  | .bufPair ..    => false
  | .hostRead ..   => false

/-- The event is an add into slot `i` (R139). -/
def addsInto (i : Fin 8) : Event → Bool
  | .bufPair j _ _ => decide (j = i)
  | .sampleRead .. => false
  | .rngByte _     => false
  | .hostRead ..   => false

/-! ### Sample memory (20_memory.md R50, R51) -/

/-- The canonical form: addresses strictly rising, no entry equal to what an unlisted address reads as. -/
abbrev Memory.wf (m : Memory) : Prop :=
  m.Pairwise (fun c d => c.1 < d.1) ∧ ∀ c ∈ m, c.2 ≠ Memory.blank

/-- The byte at an address. -/
def Memory.read : Memory → Nat → U8
  | [],          _ => Memory.blank
  | (k, v) :: m, a => if k = a then v else Memory.read m a

/-- Places a byte at an address, keeping the canonical form. -/
def Memory.write : Memory → Nat → U8 → Memory
  | [],          a, b => if b = Memory.blank then [] else [(a, b)]
  | (k, v) :: m, a, b =>
    if a < k then (if b = Memory.blank then (k, v) :: m else (a, b) :: (k, v) :: m)
    else if a = k then (if b = Memory.blank then m else (a, b) :: m)
    else (k, v) :: Memory.write m a b

/-- The address the core presents (R52): `wrapU_ADDR_W(base + pos)`. -/
def sampleAddress (s : State) : Nat := wrapU s.cfg.addrW (s.base + s.pos.toNat)

/-- `SampleRead(a)` (R51): the byte, and the state with the event recorded; nothing else changes. -/
def sampleRead (a : Nat) (s : State) : U8 × State :=
  let b := s.sample_mem.read a
  (b, record (.sampleRead a b) s)

/-! ### The pseudo-random port (20_memory.md R56) -/

/-- The byte the port answers to the next request: the next one fixed from outside, else a free value. -/
def nextDraw (s : State) : U8 :=
  match s.rng_in with
  | b :: _ => b
  | []     => Config.freeDraw s.rng_count

/-- `RngByte()` (R56): one request, always answered. -/
def rngByte (s : State) : U8 × State :=
  let b := nextDraw s
  (b, record (.rngByte b) { s with rng_in := s.rng_in.tail, rng_count := s.rng_count + 1 })

/-! ### The output block buffer (10_state.md R28, 20_memory.md R53) -/

/-- The eight slot indices in output-time order. -/
def slots : List (Fin 8) := [0, 1, 2, 3, 4, 5, 6, 7]

/-- Reads slot `i`. -/
def bufRead (i : Fin 8) (s : State) : S16 := s.buf[i]

/-- Writes slot `i`. -/
def bufWrite (i : Fin 8) (v : S16) (s : State) : State := { s with buf := s.buf.set i v }

/-! ### Reset (70_reset_and_hazards.md R180) -/

/-- Every core register at the reset column of 10_state.md R31. `BUF` is not reset (R28, R180); sample memory, the
parameters, the history and the outside world's inputs are no registers of the core. -/
def coreReset (s : State) : State :=
  { s with
    base := 0, pos := 0, end_pos := 0, byte_buf := 0, sym_cnt := 0, recon_1 := 0, recon_2 := 0, modifier := 0
    a2 := 0, a3 := 0, b1 := 0, b2 := 0, b3 := 0, xn_1 := 0, xn_2 := 0, yn_1 := 0, yn_2 := 0
    treble_amp := 0, treble_step := 0, bass_0 := 0, bass_1 := 0 }

end Sys2Proof.Machine
end

