-- ==== Sys2Proof/Machine/Operands.lean ====
section
/-! DEFINITION. The operand forms (30_encoding.md section 2): signed bytes, the noise sample, the dither bits, the block
amplitude, and what the fields of a voice definition mean to the decoder. -/

namespace Sys2Proof.Machine

/-- A signed byte widened to a slot's 16 bits by sign extension (R75). -/
def sext16 (v : S8) : S16 := v.signExtend 16

/-- The noise sample of a draw (R76): the drawn byte read as two's complement and carried as 16 bits (R121). -/
def noiseSample (draw : U8) : S16 := sext16 draw

/-- Bit `j` of a dither word, as the number 0 or 1 (R78, R111). -/
def ditherBit (w : U8) (j : Nat) : Int := if w.getLsbD j then 1 else 0

/-- The block amplitude `min(treble_amp >> 8, 0xFF)` (R77, R132). -/
def amp8 (trebleAmp : S32) : Int := min (asr trebleAmp.toInt 8) 255

/-- `sample_base` as the core's `ADDR_W` lines carry it (R71). A well-formed operand fits and is unchanged; log entry 2. -/
def boundBase (cfg : Config) (sampleBase : Nat) : Nat := wrapU cfg.addrW sampleBase

/-- The sample is null or of length 0 (R31 `empty`, R90). -/
def emptySample (cfg : Config) (sampleBase : Nat) (sampleLen : U16) : Bool :=
  decide (boundBase cfg sampleBase = nullBase) || decide (sampleLen = 0)

/-- The end cursor `sample_len + 1` (R91), in 17 bits. -/
def endCursor (sampleLen : U16) : U17 := sampleLen.setWidth 17 + 1

end Sys2Proof.Machine
end

