-- ==== Sys2Proof/Machine/Flags.lean ====
section
/-! DEFINITION. The three status values (10_state.md R29). The core has no flag register: each is a function of the
registers. -/

namespace Sys2Proof.Machine

/-- `bass_active`: the read cursor has not reached the end cursor (R29, R92 `DeltaIsActive`). -/
def bassActive (s : State) : Bool := decide (s.pos.toNat < s.end_pos.toNat)

/-- `treble_active`: `treble_amp > 0`, compared as signed 32-bit (R29, R131). -/
def trebleActive (s : State) : Bool := decide (0 < s.treble_amp.toInt)

/-- `idle`: neither layer is active (R29). -/
def idle (s : State) : Bool := !bassActive s && !trebleActive s

/-- The number of draws a `DECODE_BLOCK` at this state makes (R150): 0, 1, 8 or 9. -/
def blockDraws (s : State) : Nat := (if bassActive s then 1 else 0) + (if trebleActive s then 8 else 0)

end Sys2Proof.Machine
end

