-- ==== Sys2Proof/Machine/Symbols.lean ====
section
/-! DEFINITION. The four delta symbols (40_delta_decoder.md R96 to R99) and the reconstruction they share (R100). A symbol's
meaning is its effect on `modifier` and then the reconstruction (30_encoding.md R73); fetching and extracting the symbol
is what moves the position (`DeltaDecoder.lean`). DEDUCED, safe: log entry 13. -/

namespace Sys2Proof.Machine

/-- `Reconstruct` (R100). The sample it returns is the new `recon_1`. -/
def reconstruct (s : State) : State :=
  let prediction := wrapS 8 (2 * s.recon_1.toInt - s.recon_2.toInt)
  let recon := wrapS 8 (prediction.toInt + s.modifier.toInt)
  { s with recon_2 := s.recon_1, recon_1 := recon }

/-- `KEEP` (R96): `modifier` unchanged. -/
def execKeep (s : State) : Host.Outcome State Fault Refusal :=
  .next (reconstruct { s with modifier := s.modifier })

/-- `NEG` (R97): `modifier` negated, wrapped to 8 bits. -/
def execNeg (s : State) : Host.Outcome State Fault Refusal :=
  .next (reconstruct { s with modifier := wrapS 8 (0 - s.modifier.toInt) })

/-- `DBL` (R98): `modifier` doubled and wrapped, with the zero-escape to +1. -/
def execDbl (s : State) : Host.Outcome State Fault Refusal :=
  .next (reconstruct { s with modifier := if s.modifier = 0 then 1 else wrapS 8 (s.modifier.toInt * 2) })

/-- `HLV` (R99): `modifier` halved by an arithmetic shift, with the zero-escape to -1. -/
def execHlv (s : State) : Host.Outcome State Fault Refusal :=
  .next (reconstruct { s with modifier := if s.modifier = 0 then -1 else wrapS 8 (asr s.modifier.toInt 1) })

/-- The meaning of a decoded symbol. -/
def execSymbol (sym : DeltaSymbol) (s : State) : Host.Outcome State Fault Refusal :=
  match sym with
  | .keep => execKeep s
  | .neg  => execNeg s
  | .dbl  => execDbl s
  | .hlv  => execHlv s

end Sys2Proof.Machine
end

