-- ==== Sys2Proof/Machine/DeltaDecoder.lean ====
section
/-! DEFINITION. The adaptive-delta decoder (40_delta_decoder.md R90 to R95, R102): `DeltaTrigger`, `DeltaGet` and its
stages. -/

namespace Sys2Proof.Machine

/-- `DeltaTrigger(sample_base, sample_len)` (R90). The header byte is skipped unread. -/
def deltaTrigger (sampleBase : Nat) (sampleLen : U16) (s : State) : State :=
  let empty := emptySample s.cfg sampleBase sampleLen
  { s with
    base     := boundBase s.cfg sampleBase
    pos      := if empty then 0 else 1
    end_pos  := if empty then 0 else endCursor sampleLen
    byte_buf := 0
    sym_cnt  := 0
    recon_1  := 0
    recon_2  := 0
    modifier := s.cfg.modReset }

/-- The byte a fetch brings (R94): 0 where the cursor stands at the end, else the byte of sample memory. -/
def fetchByte (s : State) : U8 × State :=
  if s.pos = s.end_pos then (0, s) else sampleRead (sampleAddress s) s

/-- `Fetch` (R94): where no symbol is left, the next byte comes in and the cursor advances. -/
def fetch (s : State) : State :=
  if s.sym_cnt = 0 then
    let b := fetchByte s
    { b.2 with byte_buf := b.1, pos := s.pos + 1, sym_cnt := 4 }
  else s

/-- The symbol in bits 1:0 of `byte_buf` (R95). -/
def currentSymbol (s : State) : DeltaSymbol := decodeSymbol (symbolCode s.byte_buf 0)

/-- `Extract` (R95): the symbol leaves the buffer. -/
def extract (s : State) : State :=
  { s with byte_buf := lsr s.byte_buf 2, sym_cnt := s.sym_cnt - 1 }

/-- `DeltaGet` (R93): refused on an inactive decoder (R102), else fetch, extract, and the symbol's meaning. The sample it
returns is `recon_1` of the next state (R100). -/
def deltaGet (s : State) : Host.Outcome State Fault Refusal :=
  if bassActive s then
    let f := fetch s
    execSymbol (currentSymbol f) (extract f)
  else .refused .deltaGetInactive

end Sys2Proof.Machine
end

