-- ==== Sys2Proof/Machine/Interpolator.lean ====
section
/-! DEFINITION. The interpolator (41_interpolator.md): `Average`, `Lerp8`, `Spline8`. It holds no state; the dither word
lives for one call (10_state.md R26). -/

namespace Sys2Proof.Machine

/-- `Average(a, b, d)` (R110): the exact sum, then the arithmetic shift. The result fits 8 bits, so the narrowing changes
nothing. -/
def average (a b : S8) (d : Int) : S8 := wrapS 8 (asr (a.toInt + b.toInt + d) 1)

/-- The eight points of `Lerp8` under the dither word `w` (R112), by bisection in the order 4, 2, 6, 1, 3, 5, 7. -/
def lerpPoints (start stop : S8) (w : U8) : Vector S8 8 :=
  let out0 := start
  let out4 := average start stop (ditherBit w 0)
  let out2 := average out0 out4 (ditherBit w 1)
  let out6 := average out4 stop (ditherBit w 2)
  let out1 := average out0 out2 (ditherBit w 3)
  let out3 := average out2 out4 (ditherBit w 4)
  let out5 := average out4 out6 (ditherBit w 5)
  let out7 := average out6 stop (ditherBit w 6)
  #v[out0, out1, out2, out3, out4, out5, out6, out7]

/-- `Lerp8(start, end)` (R112): one draw, then the eight points. -/
def lerp8 (start stop : S8) (s : State) : Vector S8 8 × State :=
  let d := rngByte s
  (lerpPoints start stop d.1, d.2)

/-- The pointwise stage of `Spline8` (R114): bit `i` of the fresh dither word for index `i`. -/
def splinePoints (a b : Vector S8 8) (w : U8) : Vector S8 8 :=
  #v[average a[0] b[0] (ditherBit w 0), average a[1] b[1] (ditherBit w 1), average a[2] b[2] (ditherBit w 2),
     average a[3] b[3] (ditherBit w 3), average a[4] b[4] (ditherBit w 4), average a[5] b[5] (ditherBit w 5),
     average a[6] b[6] (ditherBit w 6), average a[7] b[7] (ditherBit w 7)]

/-- `Spline8(p0, p1, p2)` (R114): two ramps and their dithered average, three draws. No command reaches it (R115). -/
def spline8 (p0 p1 p2 : S8) (s : State) : Vector S8 8 × State :=
  let a := lerp8 p0 p1 s
  let b := lerp8 p1 p2 a.2
  let d := rngByte b.2
  (splinePoints a.1 b.1 d.1, d.2)

end Sys2Proof.Machine
end

