-- ==== Sys2Proof/Machine/ToneFilter.lean ====
section
/-! DEFINITION. The tone filter (42_tone_filter.md R120 to R123). -/

namespace Sys2Proof.Machine

/-- `FilterInit` (R120): stores the five coefficients and zeroes the history. -/
def filterInit (a2 a3 b1 b2 b3 : S8) (s : State) : State :=
  { s with a2 := a2, a3 := a3, b1 := b1, b2 := b2, b3 := b3, xn_1 := 0, xn_2 := 0, yn_1 := 0, yn_2 := 0 }

/-- A product before its shift (R122): exact, or cut to 16 bits under the other reading. -/
def filterProduct (reading : ProductReading) (c : S8) (x : S16) : Int :=
  match reading with
  | .fullProduct    => c.toInt * x.toInt
  | .productCutTo16 => (wrapS 16 (c.toInt * x.toInt)).toInt

/-- One term of the filter (R121): the whole product, shifted by the term's own amount. -/
def filterTerm (reading : ProductReading) (c : S8) (x : S16) (shift : Nat) : Int :=
  asr (filterProduct reading c x) shift

/-- The output `yy` for the input `x` (R121), wrapped to 16 bits and not saturated (R123). -/
def filterOutput (x : S16) (s : State) : S16 :=
  let t1 := filterTerm s.cfg.product s.b1 x 8
  let t2 := filterTerm s.cfg.product s.b2 s.xn_1 8
  let t3 := filterTerm s.cfg.product s.b3 s.xn_2 7
  let t4 := filterTerm s.cfg.product s.a2 s.yn_1 6
  let t5 := filterTerm s.cfg.product s.a3 s.yn_2 7
  wrapS 16 (t1 + t2 + t3 - t4 - t5)

/-- `FilterGet(x)` (R121): the output, and the history moved on after it is formed. -/
def filterGet (x : S16) (s : State) : S16 × State :=
  let yy := filterOutput x s
  (yy, { s with xn_2 := s.xn_1, xn_1 := x, yn_2 := s.yn_1, yn_1 := yy })

end Sys2Proof.Machine
end

