-- ==== Sys2Proof/Machine/EnvelopeMixer.lean ====
section
/-! DEFINITION. The envelope accumulator, the mixer, and the two per-block paths (43_envelope_and_mixer.md R130 to R142). -/

namespace Sys2Proof.Machine

/-- `TrebleLoad(initial, increment)` (R130): both fields at the accumulator's own scale. -/
def trebleLoad (initial increment : U16) (s : State) : State :=
  { s with treble_amp := initial.setWidth 32, treble_step := increment }

/-- `TrebleScale(y, amp8)` (R134): the exact product, then the arithmetic shift; it fits 16 bits. -/
def trebleScale (y : S16) (amp : Int) : S16 := wrapS 16 (asr (y.toInt * amp) 8)

/-- `MixAdd(i, v)` (R139): one read and one write of slot `i`, the sum wrapped to 16 bits. -/
def mixAdd (i : Fin 8) (v : S16) (s : State) : State :=
  let old := bufRead i s
  let new := wrapS 16 (old.toInt + v.toInt)
  record (.bufPair i old new) (bufWrite i new s)

/-- One position of the treble path (R135): a draw, a filter step, a scaled add. -/
def treblePosition (amp : Int) (s : State) (i : Fin 8) : State :=
  let d := rngByte s
  let y := filterGet (noiseSample d.1) d.2
  mixAdd i (trebleScale y.1 amp) y.2

/-- The decay (R136): once a block, the stored step is subtracted. -/
def trebleDecay (s : State) : State :=
  { s with treble_amp := wrapS 32 (s.treble_amp.toInt - s.treble_step.toNat) }

/-- `TrebleBlock` (R135): the amplitude once, the eight positions in ascending order, then the decay. -/
def trebleBlock (s : State) : State :=
  trebleDecay (slots.foldl (treblePosition (amp8 s.treble_amp)) s)

/-- Adds the eight values of a ramp into the slots (R138). -/
def mixRamp (out : Vector S8 8) (s : State) : State :=
  slots.foldl (fun t i => mixAdd i (sext16 out[i]) t) s

/-- What `BassBlock` does once `DeltaGet` has answered (R138): the ramp from the older bass sample to the newer. -/
def bassRamp (s : State) : State :=
  let out := lerp8 s.bass_1 s.bass_0 s
  mixRamp out.1 out.2

/-- `BassBlock` (R138): the old `bass_0` moves to `bass_1`, one sample is decoded, the ramp is added. -/
def bassBlock (s : State) : Host.Outcome State Fault Refusal :=
  andThen (deltaGet { s with bass_1 := s.bass_0 }) fun t =>
    .next (bassRamp { t with bass_0 := t.recon_1 })

end Sys2Proof.Machine
end

