-- ==== Sys2Proof/Machine/Commands.lean ====
section
/-! DEFINITION. The two host commands (44_voice_renderer.md R145, R146). -/

namespace Sys2Proof.Machine

/-- `TRIGGER VD` (R145): the decoder, the filter, the envelope and the bass history, all loaded anew. -/
def execTrigger (vd : VoiceDef) (s : State) : Host.Outcome State Fault Refusal :=
  let s := deltaTrigger vd.sampleBase vd.sampleLen s
  let s := filterInit vd.a2 vd.a3 vd.b1 vd.b2 vd.b3 s
  let s := trebleLoad vd.initial vd.increment s
  .next { s with bass_0 := 0, bass_1 := 0 }

/-- The bass half of `DECODE_BLOCK` (R146): guarded by `DeltaIsActive`. -/
def bassPath (s : State) : Host.Outcome State Fault Refusal :=
  if bassActive s then bassBlock s else .next s

/-- The treble half of `DECODE_BLOCK` (R146): guarded by `treble_amp > 0`. -/
def treblePath (s : State) : State :=
  if trebleActive s then trebleBlock s else s

/-- `DECODE_BLOCK` (R146): the bass path, then the treble path, each under its own guard. -/
def execDecodeBlock (s : State) : Host.Outcome State Fault Refusal :=
  andThen (bassPath s) fun t => .next (treblePath t)

end Sys2Proof.Machine
end

