-- ==== Sys2Proof/Machine/HostActions.lean ====
section
/-! DEFINITION. What the host does other than presenting a command: its accesses to `BUF` and to sample memory, and `rst`.
Each is one step of the model. -/

namespace Sys2Proof.Machine

/-- The host writes a slot between commands (10_state.md R28). -/
def hostWriteSlot (i : Fin 8) (v : S16) (s : State) : State := bufWrite i v s

/-- The host reads a slot between commands (R28): it sees the slot's content, which the history records. -/
def hostReadSlot (i : Fin 8) (s : State) : State := record (.hostRead i (bufRead i s)) s

/-- The effect of placing a byte in sample memory (R9, R182): every later fetch of it shows the new value, `byte_buf` keeps
what was fetched before (20_memory.md R63). The address is taken modulo 2^ADDR_W (log entry 28). -/
def writeSampleByte (a : Nat) (b : U8) (s : State) : State :=
  { s with sample_mem := s.sample_mem.write (wrapU s.cfg.addrW a) b }

/-- The least offset from 1 on at which the byte at address `x` stands from `base` (R52). -/
def sampleOffset (x : Nat) (s : State) : Nat :=
  let size := 2 ^ s.cfg.addrW
  (x + (size - s.base % size) + (size - 1)) % size + 1

/-- The byte at address `x` is a data byte of the bound sample and the sample is active: the bytes R63 and R183 (c) ask the
host not to change, `sample_base + 1` to `sample_base + sample_len`. -/
def activeSampleByte (x : Nat) (s : State) : Bool :=
  bassActive s && decide (sampleOffset x s < s.end_pos.toNat)

/-- The host places a byte in sample memory. A write to an active sample gets no meaning (60_exceptions.md R162, R183, D27,
U10): it is refused, the reading R63 calls safe. Log entry 15. -/
def hostWriteSample (a : Nat) (b : U8) (s : State) : Host.Outcome State Fault Refusal :=
  if activeSampleByte (wrapU s.cfg.addrW a) s then .refused .hostWriteToActiveSample
  else .next (writeSampleByte a b s)

/-- The accesses a `DECODE_BLOCK` at this state makes, in order (R64). -/
def blockTrace (s : State) : List Event :=
  match execDecodeBlock s with
  | .next t    => t.events.drop s.events.length
  | .fault _   => []
  | .refused _ => []

/-- The accesses an abandoned block had made (R180): the first few of its own, in the order of R64 and R151; how many is a
FREE VALUE, safe: log entry 17. -/
def abandonedTrace (s : State) : List Event :=
  (blockTrace s).take (Config.freeAccessesMade s.free_count % ((blockTrace s).length + 1))

/-- What an abandoned block leaves outside the registers (R180, U4): the accesses made stand in the history, their draws are
taken from the port, a slot already added into holds a FREE VALUE, every other slot is as it was (R28). Safe: log entry 17. -/
def abandonBlock (s : State) : State :=
  let done := abandonedTrace s
  let draws := done.countP isDraw
  { s with
    buf := Vector.ofFn fun i : Fin 8 =>
      if done.any (addsInto i) then Config.freeSlot (8 * s.free_count + i) else s.buf[i]
    events := s.events ++ done
    rng_in := s.rng_in.drop draws
    rng_count := s.rng_count + draws
    free_count := s.free_count + 1 }

/-- `rst` during a command (R180): the command is abandoned. A `TRIGGER` and a block on an idle core have touched nothing
but registers. -/
def abandonCommand (cmd : BitVec 1) (s : State) : State :=
  if cmd = 1#1 ∧ idle s = false then coreReset (abandonBlock s) else coreReset s

/-! ### The host scripts of 30_encoding.md R82 and R83 -/

/-- `TRIGGER name`: the command and its operand record. -/
def hostTrigger (cfg : Config) (vd : VoiceDef) : HostAction :=
  .command 0#1 (encodeVoiceDef cfg.addrW vd)

/-- `DECODE_BLOCK`, and `MIX`, which is the same without a `ZERO` before it (R83). -/
def hostDecodeBlock : HostAction := .command 1#1 0

/-- `ZERO`: 0 written to all eight slots (R82). -/
def hostZero : List HostAction := slots.map fun i => .writeSlot i 0

/-- `READ`: all eight slots read (R82). -/
def hostReadAll : List HostAction := slots.map .readSlot

/-- `RENDER n`: `n` times zero, decode, read (R83). -/
def hostRender : Nat → List HostAction
  | 0     => []
  | n + 1 => hostZero ++ hostDecodeBlock :: hostReadAll ++ hostRender n

/-- `SILENT`: a voice with `ENV 0, 0` and a null sample (R83); its `TRIGGER` serves as "stop" (R153). R83 names no
coefficients and no length: 0 for each is a DESIGN CHOICE, safe, log entry 29. -/
def silentVoice : VoiceDef :=
  { initial := 0, increment := 0, a2 := 0, a3 := 0, b1 := 0, b2 := 0, b3 := 0, sampleBase := nullBase, sampleLen := 0 }

/-- `SAMPLE @base`: the host's writes that place a header byte and the packed symbols in sample memory (R74, R82). -/
def hostPlaceSample (base : Nat) (header : U8) (symbols : List DeltaSymbol) : List HostAction :=
  (header :: packSymbols symbols).zipIdx.map fun c => .writeSample (base + c.2) c.1

end Sys2Proof.Machine
end

