-- ==== Sys2Proof/Machine/Dispatch.lean ====
section
/-! DEFINITION. The meaning of each instruction: one arm for each constructor. -/

namespace Sys2Proof.Machine

def exec (i : Instr) (s : State) : Host.Outcome State Fault Refusal :=
  match i with
  | .keep => Sys2Proof.Machine.execKeep s
  | .neg => Sys2Proof.Machine.execNeg s
  | .dbl => Sys2Proof.Machine.execDbl s
  | .hlv => Sys2Proof.Machine.execHlv s
  | .trigger vd => Sys2Proof.Machine.execTrigger vd s
  | .decodeBlock => Sys2Proof.Machine.execDecodeBlock s

end Sys2Proof.Machine
end

