-- ==== Sys2Proof/Machine/Step.lean ====
section
/-! DEFINITION. One step: the next host action is taken (70_reset_and_hazards.md R185); a command is decoded and run
(00_scope.md R8). -/

namespace Sys2Proof.Machine

/-- One host action on a state from whose list it has been taken. -/
def runAction (a : HostAction) (s : State) : Host.Outcome State Fault Refusal :=
  match a with
  | .command cmd operand          => exec (decodeCommand s.cfg.addrW cmd operand) s
  | .writeSlot i v                => .next (hostWriteSlot i v s)
  | .readSlot i                   => .next (hostReadSlot i s)
  | .writeSample a b              => hostWriteSample a b s
  | .reset                        => .next (coreReset s)
  | .resetWithCommand _ _         => .next (coreReset s)
  | .resetDuringCommand cmd _     => .next (abandonCommand cmd s)

/-- One step of the machine. With no host action left nothing happens: the core steps only when given a command (R9).
DESIGN CHOICE, safe: log entry 14. -/
def step (s : State) : Host.Outcome State Fault Refusal :=
  match s.host_in with
  | []        => .next s
  | a :: rest => runAction a { s with host_in := rest }

/-- A host action put before all others. -/
def State.withAction (s : State) (a : HostAction) : State := { s with host_in := a :: s.host_in }

/-- The decoder bound to a sample whose first and only data byte is `b`, about to fetch it (R90): what a run of the symbol
in bits 1:0 of `b` takes. -/
def State.withDataByte (s : State) (b : U8) : State :=
  let s := { s with base := if s.base = 0 then 1 else s.base, pos := 1, end_pos := 2, sym_cnt := 0 }
  { s with sample_mem := s.sample_mem.write (sampleAddress s) b }

/-- A table word placed so that the very next step runs it: a command is presented by the host; a symbol stands in the
first data byte of the bound sample and the host presents the `DECODE_BLOCK` that executes it (R24, R93). Log entry 12. -/
def State.withFetchWord (s : State) (nbits w : Nat) : State :=
  match tableFormat nbits w with
  | none       => s
  | some .cmd  => s.withAction (.command (BitVec.ofNat 1 w) 0)
  | some .sym2 => (s.withDataByte (BitVec.ofNat 8 w)).withAction (.command 1#1 0)

end Sys2Proof.Machine
end

