-- ==== Sys2Proof/Safety.lean ====
section
/-! DEFINITION. The terms claims are made in: the invariant of 10_state.md R32, what it is for a step to complete, the next
draws, what a block adds to each slot, and the accesses a block makes. -/

namespace Sys2Proof.Safety

open Sys2Proof.Machine

/-- The operation answers a next state. -/
def Completes (o : Host.Outcome State Fault Refusal) : Prop := ∃ t, o = .next t

/-! ### Signed ranges (00_scope.md R12) -/

/-- `wrapS_8(z)` as an integer: the one congruent to `z` modulo 256 in -128 to 127. -/
def signed8 (z : Int) : Int := (z + 128) % 256 - 128

/-- `wrapS_16(z)` as an integer: the one congruent to `z` modulo 65536 in -32768 to 32767. -/
def signed16 (z : Int) : Int := (z + 32768) % 65536 - 32768

/-! ### The invariant -/

/-- The values a signed byte has. -/
abbrev ByteRange (v : S16) : Prop := -128 ≤ v.toInt ∧ v.toInt ≤ 127

/-- What holds after reset and after every command (R32 a to e), and with it the width of `base` and the bounds of the
cursor (R22), the null base (R60, R90), the first data byte's offset (R91), and the canonical form of sample memory. -/
structure Inv (s : State) : Prop where
  /-- R32 (a). -/
  pos_le       : s.pos.toNat ≤ s.end_pos.toNat
  /-- R22: `end_pos <= 65536`. -/
  end_le       : s.end_pos.toNat ≤ 65536
  /-- R91: a bound sample's cursor is past the header byte. -/
  pos_pos      : s.end_pos.toNat ≠ 0 → 1 ≤ s.pos.toNat
  /-- R32 (b). -/
  sym_le       : s.sym_cnt.toNat ≤ 3
  /-- R32 (c), and R95 for an empty buffer. -/
  buf_lt       : s.byte_buf.toNat < 4 ^ s.sym_cnt.toNat
  /-- R32 (d). -/
  xn_1_range   : ByteRange s.xn_1
  /-- R32 (d). -/
  xn_2_range   : ByteRange s.xn_2
  /-- R32 (e). -/
  amp_ge       : -65535 ≤ s.treble_amp.toInt
  /-- R32 (e). -/
  amp_le       : s.treble_amp.toInt ≤ 65535
  /-- R22: `base` is `ADDR_W` bits wide. -/
  base_lt      : s.base < 2 ^ s.cfg.addrW
  /-- R60, R90: a null base binds no sample. -/
  null_empty   : s.base = nullBase → s.end_pos.toNat = 0
  /-- The memory's canonical form. -/
  mem_wf       : Memory.wf s.sample_mem

/-! ### The reconstruction -/

/-- `t` follows `s` by the reconstruction (R100), with the `modifier` of `t`: the prediction and the sum wrapped to 8 bits,
the history moved, and nothing else but `modifier` changed. -/
def Reconstructed (s t : State) : Prop :=
  t.recon_1.toInt = signed8 (signed8 (2 * s.recon_1.toInt - s.recon_2.toInt) + t.modifier.toInt) ∧
  t.recon_2 = s.recon_1 ∧
  t = { s with modifier := t.modifier, recon_1 := t.recon_1, recon_2 := t.recon_2 }

/-- The delta symbols as instructions. -/
def symbols : List Instr := [.keep, .neg, .dbl, .hlv]

/-- The registers of the core are those of `State.reset`. -/
def RegistersReset (t : State) : Prop :=
  t.base = 0 ∧ t.pos = 0 ∧ t.end_pos = 0 ∧ t.byte_buf = 0 ∧ t.sym_cnt = 0 ∧ t.recon_1 = 0 ∧ t.recon_2 = 0 ∧
  t.modifier = 0 ∧ t.a2 = 0 ∧ t.a3 = 0 ∧ t.b1 = 0 ∧ t.b2 = 0 ∧ t.b3 = 0 ∧ t.xn_1 = 0 ∧ t.xn_2 = 0 ∧ t.yn_1 = 0 ∧
  t.yn_2 = 0 ∧ t.treble_amp = 0 ∧ t.treble_step = 0 ∧ t.bass_0 = 0 ∧ t.bass_1 = 0

/-- A voice has no bass layer (R31 `empty`): a null base or a length of 0. -/
def EmptySample (vd : VoiceDef) : Bool := decide (vd.sampleBase = nullBase) || decide (vd.sampleLen.toNat = 0)

/-! ### What comes next -/

/-- Draw number `k` from here on (R56): fixed from outside, else a free value. -/
def drawAt (s : State) (k : Nat) : U8 := (s.rng_in[k]?).getD (Config.freeDraw (s.rng_count + k))

/-- The filter's outputs for a list of inputs, one after another (R121). -/
def filterOutputs : List S16 → State → List S16
  | [],      _ => []
  | x :: xs, s => (filterGet x s).1 :: filterOutputs xs (filterGet x s).2

/-- The number of draws before a block's noise draws (R150): the dither word's, where the bass path runs. -/
def ditherDraws (s : State) : Nat := if bassActive s then 1 else 0

/-- The eight noise samples of a block (R150, R76). -/
def noiseSamples (s : State) : List S16 :=
  (List.range 8).map fun j => noiseSample (drawAt s (ditherDraws s + j))

/-- What the bass path of a `DECODE_BLOCK` adds to slot `i` (R138): the ramp from the old `bass_0` to the sample the
decoder yields; 0 where the decoder is inactive. -/
def bassPart (s : State) (i : Fin 8) : S16 :=
  match deltaGet s with
  | .next g    => sext16 (lerpPoints s.bass_0 g.recon_1 (drawAt s 0))[i]
  | .fault _   => 0
  | .refused _ => 0

/-- What the treble path of a `DECODE_BLOCK` adds to slot `i` (R135): the filter's output for noise sample `i`, scaled;
0 where the layer is inactive. -/
def treblePart (s : State) (i : Fin 8) : S16 :=
  if trebleActive s then
    trebleScale ((filterOutputs (noiseSamples s) s).getD i 0) (amp8 s.treble_amp)
  else 0

/-- The accesses of the bass path in order (R64, R151): at most one read, one draw, eight pairs. -/
def bassEvents (s : State) : List Event :=
  if bassActive s then
    (if s.sym_cnt = 0 then [.sampleRead (sampleAddress s) (s.sample_mem.read (sampleAddress s))] else [])
      ++ .rngByte (drawAt s 0) :: slots.map fun i => .bufPair i s.buf[i] (s.buf[i] + bassPart s i)
  else []

/-- The accesses of the treble path in order (R64, R150): eight times a draw and a pair. -/
def trebleEvents (s : State) : List Event :=
  if trebleActive s then
    slots.flatMap fun (i : Fin 8) =>
      [.rngByte (drawAt s (ditherDraws s + i.val)),
       .bufPair i (s.buf[i] + bassPart s i) (s.buf[i] + bassPart s i + treblePart s i)]
  else []

/-- `k` commands `DECODE_BLOCK` one after another. -/
def blocks : Nat → State → Host.Outcome State Fault Refusal
  | 0,     s => .next s
  | k + 1, s => andThen (exec .decodeBlock s) (blocks k)

/-- The next host action is not a `TRIGGER` (R147: nothing else leaves idle). -/
def NextIsNotTrigger (s : State) : Prop :=
  ∀ operand rest, s.host_in ≠ HostAction.command 0#1 operand :: rest

/-- The byte at address `x` is a data byte of the bound sample, which is active: R63's `sample_base + 1` to
`sample_base + sample_len`, until `bass_active` is false. -/
def ActiveSampleByte (s : State) (x : Nat) : Prop :=
  bassActive s = true ∧ ∃ k, 1 ≤ k ∧ k < s.end_pos.toNat ∧ (s.base + k) % 2 ^ s.cfg.addrW = x

/-- The next host action writes a byte of an active sample: the host breaks R183 (c). -/
def WritesActiveSample (s : State) : Prop :=
  ∃ a b rest, s.host_in = HostAction.writeSample a b :: rest ∧ ActiveSampleByte s (a % 2 ^ s.cfg.addrW)

end Sys2Proof.Safety
end

