-- ==== Sys2Proof/Certificates/Slice0/Obligations.lean ====
section
/-! DEFINITION. The statements about the model, for the provers. Each docstring names the rule of spec/ it formalises. -/

open Sys2Proof Sys2Proof.Machine Sys2Proof.Safety

/-! ### Encoding (30_encoding.md) -/

/-- R70, R71, R73: what the encoder writes, the decoder reads back, on a core with any parameters, every operand at every
value its field admits. The places of the operand's fields are the model's choice (log entry 9). -/
def Obligations.DecodeOfEncodeIsTheInstruction : Prop :=
  ∀ (cfg : Config) (i : Instr), i.wellFormed cfg = true → decode cfg (encode cfg i) = .ok i

/-- R71: no line of the operand record is dropped: a decoded `TRIGGER` encodes to the record it came from, and it is
well-formed. The places of the fields are the model's choice (log entry 9). -/
def Obligations.EncodeOfDecodedTriggerIsItsRecord : Prop :=
  ∀ (cfg : Config) (record : Nat), record < 2 ^ operandWidth cfg.addrW →
    (decodeCommand cfg.addrW 0#1 record).wellFormed cfg = true ∧
    encode cfg (decodeCommand cfg.addrW 0#1 record) = { format := .cmd, code := 0, operand := record }

/-- R70, R71, R72, R73 and program P4 of 95_test_vectors.md: words written out field by field. The places of the operand's
fields are the model's choice (log entry 9). -/
def Obligations.SpecWordsDecode : Prop :=
  decode {} { format := .sym2, code := 0b00, operand := 0 } = .ok .keep ∧
  decode {} { format := .sym2, code := 0b01, operand := 0 } = .ok .neg ∧
  decode {} { format := .sym2, code := 0b10, operand := 0 } = .ok .dbl ∧
  decode {} { format := .sym2, code := 0b11, operand := 0 } = .ok .hlv ∧
  decode {} { format := .cmd, code := 0b1, operand := 0 } = .ok .decodeBlock ∧
  decode {} { format := .cmd, code := 0b0, operand := 0x0002030081007F60A620004000 } =
    .ok (.trigger { initial := 0x4000, increment := 0x2000, a2 := 0xA6, a3 := 0x60, b1 := 0x7F, b2 := 0x00, b3 := 0x81,
                    sampleBase := 0x0300, sampleLen := 0x0002 })

/-- R72: `B = s0 + 4*s1 + 16*s2 + 64*s3`, the first symbol in the least significant pair. -/
def Obligations.DataByteHoldsFourSymbols : Prop :=
  (∀ s0 s1 s2 s3 : BitVec 2,
    decodeSymbolByte (BitVec.ofNat 8 (s0.toNat + 4 * s1.toNat + 16 * s2.toNat + 64 * s3.toNat)) =
      [decodeSymbol s0, decodeSymbol s1, decodeSymbol s2, decodeSymbol s3]) ∧
  decodeSymbolByte 0x6A = [.dbl, .dbl, .dbl, .neg]

/-- R79: every code of either format, with any operand record of the port's width, decodes to a well-formed instruction. -/
def Obligations.NoIllegalEncoding : Prop :=
  ∀ cfg : Config,
    (∀ code < 4, ∃ i, decode cfg { format := .sym2, code := code, operand := 0 } = .ok i ∧ i.wellFormed cfg = true) ∧
    (∀ code < 2, ∀ operand < 2 ^ operandWidth cfg.addrW,
      ∃ i, decode cfg { format := .cmd, code := code, operand := operand } = .ok i ∧ i.wellFormed cfg = true)

/-! ### The step -/

/-- R70, R155: a step at a presented command runs the decoded instruction, with the command taken from the host's list: the
model's form of the command port (log entries 10 and 12). -/
def Obligations.StepRunsThePresentedCommand : Prop :=
  ∀ (s : State) (cmd : BitVec 1) (operand : Nat) (rest : List HostAction),
    s.host_in = .command cmd operand :: rest →
    step s = exec (decodeCommand s.cfg.addrW cmd operand) { s with host_in := rest }

/-- Log entry 12 (the model's choice): a table word placed by `withFetchWord` is what the very next step runs. A command
word is the command; a symbol word is the first symbol of the sample whose `DECODE_BLOCK` the step runs. -/
def Obligations.PlacedTableWordRuns : Prop :=
  ∀ s : State, Memory.wf s.sample_mem →
    (∀ w < 2, step (s.withFetchWord 1 w) = exec (decodeCommand s.cfg.addrW (BitVec.ofNat 1 w) 0) s) ∧
    (∀ w < 4, let r := s.withDataByte (BitVec.ofNat 8 w)
      step (s.withFetchWord 2 w) = exec .decodeBlock r ∧
      deltaGet r = exec (decodeSymbol (BitVec.ofNat 2 w)).toInstr (extract (fetch r)))

/-- Log entry 14 (the model's choice), after R9: with no host action left a step changes nothing. -/
def Obligations.NoHostActionNoChange : Prop :=
  ∀ s : State, s.host_in = [] → step s = .next s

/-- R160, R162: no instruction and no host action stops but the one the spec gives no meaning (R183 (c), D27, U10; that it
stops by a refusal is the model's choice, log entry 15): every step completes unless the host writes a byte of an active
sample, and that step is refused. -/
def Obligations.OnlyAWriteToAnActiveSampleStops : Prop :=
  ∀ s : State, (¬ WritesActiveSample s → Completes (step s)) ∧
    (WritesActiveSample s → step s = .refused .hostWriteToActiveSample)

/-! ### The decoder (40_delta_decoder.md) -/

/-- R93: refused on an inactive decoder; else fetch, extract, and the meaning of the symbol extracted, which completes. -/
def Obligations.DeltaGetRunsTheExtractedSymbol : Prop :=
  ∀ s : State,
    (¬ s.pos.toNat < s.end_pos.toNat → deltaGet s = .refused .deltaGetInactive) ∧
    (s.pos.toNat < s.end_pos.toNat →
      deltaGet s = exec (decodeSymbol (symbolCode (fetch s).byte_buf 0)).toInstr (extract (fetch s)) ∧
      Completes (deltaGet s))

/-- R94: the fetch stage, both arms of the substituted byte, and its one access. -/
def Obligations.FetchStage : Prop :=
  ∀ s : State,
    (s.sym_cnt ≠ 0 → fetch s = s) ∧
    (s.sym_cnt = 0 →
      let a := (s.base + s.pos.toNat) % 2 ^ s.cfg.addrW
      let b := if s.pos = s.end_pos then 0 else s.sample_mem.read a
      fetch s = { s with
        byte_buf := b, pos := s.pos + 1, sym_cnt := 4
        events := s.events ++ if s.pos = s.end_pos then [] else [.sampleRead a b] })

/-- R95: the symbol is bits 1:0, zeros enter at the top, the count goes down, and after the fourth extraction nothing is
left; the four symbols come in the order of R72. -/
def Obligations.ExtractStage : Prop :=
  ∀ s : State,
    (1 ≤ s.sym_cnt.toNat → (extract s).sym_cnt.toNat = s.sym_cnt.toNat - 1) ∧
    (extract s).byte_buf.toNat = s.byte_buf.toNat / 4 ∧
    extract s = { s with byte_buf := (extract s).byte_buf, sym_cnt := (extract s).sym_cnt } ∧
    currentSymbol s = decodeSymbol (BitVec.ofNat 2 (s.byte_buf.toNat % 4)) ∧
    (extract (extract (extract (extract s)))).byte_buf = 0 ∧
    decodeSymbolByte s.byte_buf = [currentSymbol s, currentSymbol (extract s), currentSymbol (extract (extract s)),
      currentSymbol (extract (extract (extract s)))]

/-- R24: a `DeltaGet` moves the position by one symbol. -/
def Obligations.DeltaGetAdvancesOneSymbol : Prop :=
  ∀ s : State, bassActive s = true → ∃ t, deltaGet s = .next t ∧
    (s.sym_cnt = 0 → t.pos.toNat = s.pos.toNat + 1 ∧ t.sym_cnt = 3) ∧
    (s.sym_cnt ≠ 0 → t.pos = s.pos ∧ t.sym_cnt.toNat = s.sym_cnt.toNat - 1)

/-- R100: every symbol completes, and reconstructs with the `modifier` it leaves. -/
def Obligations.SymbolsReconstruct : Prop :=
  ∀ i ∈ symbols, ∀ s : State, ∃ t, exec i s = .next t ∧ Reconstructed s t

/-- R96: `KEEP` completes and leaves `modifier` unchanged. -/
def Obligations.KeepLeavesModifier : Prop :=
  ∀ s : State, ∃ t, exec .keep s = .next t ∧ t.modifier = s.modifier ∧ Reconstructed s t

/-- R97: `NEG` completes with `modifier` negated, -128 staying -128 and every other value changing sign exactly. -/
def Obligations.NegNegatesModifier : Prop :=
  ∀ s : State, ∃ t, exec .neg s = .next t ∧ Reconstructed s t ∧
    t.modifier.toInt = (if s.modifier.toInt = -128 then -128 else -s.modifier.toInt)

/-- R98: `DBL` completes with `modifier` doubled and wrapped to 8 bits, or 1 where it was 0. -/
def Obligations.DblDoublesModifier : Prop :=
  ∀ s : State, ∃ t, exec .dbl s = .next t ∧ Reconstructed s t ∧
    t.modifier.toInt = (if s.modifier.toInt = 0 then 1 else signed8 (2 * s.modifier.toInt))

/-- R99: `HLV` completes with the floor of half of `modifier`, or -1 where it was 0. -/
def Obligations.HlvHalvesModifier : Prop :=
  ∀ s : State, ∃ t, exec .hlv s = .next t ∧ Reconstructed s t ∧
    t.modifier.toInt = (if s.modifier.toInt = 0 then -1 else s.modifier.toInt / 2)

/-- R96 to R100: the frame of the four symbols: nothing but `modifier` and the reconstruction history changes, and every
byte of sample memory reads as before. -/
def Obligations.SymbolsChangeOnlyTheReconstruction : Prop :=
  ∀ i ∈ symbols, ∀ s t : State, exec i s = .next t →
    (∀ a, t.sample_mem.read a = s.sample_mem.read a) ∧
    t = { s with modifier := t.modifier, recon_1 := t.recon_1, recon_2 := t.recon_2 }

/-- R104: `DeltaGet` is a function of the decoder's registers, the parameters and the byte it reads, where it reads one: on
two states that agree on these, whatever other bytes they hold and whatever the port would answer, both are refused, or both
answer next states with the same sample and the same decoder registers; and it makes no draw. -/
def Obligations.DeltaGetIsDeterministic : Prop :=
  ∀ s s' : State,
    s'.cfg = s.cfg → s'.base = s.base → s'.pos = s.pos → s'.end_pos = s.end_pos → s'.byte_buf = s.byte_buf →
    s'.sym_cnt = s.sym_cnt → s'.recon_1 = s.recon_1 → s'.recon_2 = s.recon_2 → s'.modifier = s.modifier →
    (s.sym_cnt = 0 → s'.sample_mem.read (sampleAddress s) = s.sample_mem.read (sampleAddress s)) →
    (∀ r, deltaGet s = .refused r → deltaGet s' = .refused r) ∧
    (∀ t, deltaGet s = .next t → ∃ t', deltaGet s' = .next t' ∧
      t'.base = t.base ∧ t'.pos = t.pos ∧ t'.end_pos = t.end_pos ∧ t'.byte_buf = t.byte_buf ∧ t'.sym_cnt = t.sym_cnt ∧
      t'.recon_1 = t.recon_1 ∧ t'.recon_2 = t.recon_2 ∧ t'.modifier = t.modifier ∧
      t.rng_in = s.rng_in ∧ t.rng_count = s.rng_count ∧ t'.rng_in = s'.rng_in ∧ t'.rng_count = s'.rng_count)

/-! ### The pseudo-random port and the interpolator (20_memory.md R56, 41_interpolator.md) -/

/-- R56: a request is always answered, by the next byte, and the k-th answer after it is what the (k+1)-th was. Which byte
that is, a listed one or a free value, is the model's form of the free input (log entry 5). -/
def Obligations.RngByteConsumesOneAnswer : Prop :=
  ∀ s : State, (rngByte s).1 = drawAt s 0 ∧ (∀ k, drawAt (rngByte s).2 k = drawAt s (k + 1)) ∧
    (rngByte s).2 = { s with
      rng_in := s.rng_in.tail, rng_count := s.rng_count + 1, events := s.events ++ [.rngByte (drawAt s 0)] }

/-- R110: the floor of half the exact sum, with no wrap; equal operands give themselves; symmetric. -/
def Obligations.AverageIsTheExactFloor : Prop :=
  ∀ (a b : S8) (d : Int), (d = 0 ∨ d = 1) →
    (average a b d).toInt = (a.toInt + b.toInt + d) / 2 ∧ average a a d = a ∧ average a b d = average b a d

/-- R112: the eight points by bisection, in the order that gives each its dither bit, and exactly one draw. -/
def Obligations.Lerp8Bisects : Prop :=
  ∀ (start stop : S8) (s : State),
    let w := drawAt s 0
    let d := fun j => if w.getLsbD j then (1 : Int) else 0
    let out := (lerp8 start stop s).1
    out[0] = start ∧
    out[4].toInt = (start.toInt + stop.toInt + d 0) / 2 ∧
    out[2].toInt = (out[0].toInt + out[4].toInt + d 1) / 2 ∧
    out[6].toInt = (out[4].toInt + stop.toInt + d 2) / 2 ∧
    out[1].toInt = (out[0].toInt + out[2].toInt + d 3) / 2 ∧
    out[3].toInt = (out[2].toInt + out[4].toInt + d 4) / 2 ∧
    out[5].toInt = (out[4].toInt + out[6].toInt + d 5) / 2 ∧
    out[7].toInt = (out[6].toInt + stop.toInt + d 6) / 2 ∧
    (lerp8 start stop s).2 = { s with
      rng_in := s.rng_in.tail, rng_count := s.rng_count + 1, events := s.events ++ [.rngByte w] }

/-- R113, which the spec marks as its own inference: every point of a ramp lies between its ends. -/
def Obligations.LerpStaysBetweenItsEnds : Prop :=
  ∀ (start stop : S8) (w : U8) (i : Fin 8),
    min start.toInt stop.toInt ≤ (lerpPoints start stop w)[i].toInt ∧
    (lerpPoints start stop w)[i].toInt ≤ max start.toInt stop.toInt

/-- R114: two ramps and their dithered average, three draws in order. -/
def Obligations.Spline8AveragesTwoRamps : Prop :=
  ∀ (p0 p1 p2 : S8) (s : State),
    let out := spline8 p0 p1 p2 s
    (∀ i : Fin 8, out.1[i].toInt =
      ((lerpPoints p0 p1 (drawAt s 0))[i].toInt + (lerpPoints p1 p2 (drawAt s 1))[i].toInt
        + (if (drawAt s 2).getLsbD i.val then (1 : Int) else 0)) / 2) ∧
    out.2 = { s with
      rng_in := s.rng_in.drop 3, rng_count := s.rng_count + 3
      events := s.events ++ [.rngByte (drawAt s 0), .rngByte (drawAt s 1), .rngByte (drawAt s 2)] }

/-! ### The tone filter (42_tone_filter.md) -/

/-- R120: the coefficients are stored, the history is zero, nothing else changes. -/
def Obligations.FilterInitStoresAndZeroes : Prop :=
  ∀ (c2 c3 d1 d2 d3 : S8) (s : State), filterInit c2 c3 d1 d2 d3 s =
    { s with a2 := c2, a3 := c3, b1 := d1, b2 := d2, b3 := d3, xn_1 := 0, xn_2 := 0, yn_1 := 0, yn_2 := 0 }

/-- R121: one filter step with the whole products shifted by 8, 8, 7, 6, 7, the sum wrapped to 16 bits, and the history
moved on; every coefficient and history value. -/
def Obligations.FilterGetStep : Prop :=
  ∀ (x : S16) (s : State), s.cfg.product = .fullProduct →
    let r := filterGet x s
    r.1.toInt = signed16 (s.b1.toInt * x.toInt / 256 + s.b2.toInt * s.xn_1.toInt / 256 + s.b3.toInt * s.xn_2.toInt / 128
      - s.a2.toInt * s.yn_1.toInt / 64 - s.a3.toInt * s.yn_2.toInt / 128) ∧
    r.2 = { s with xn_2 := s.xn_1, xn_1 := x, yn_2 := s.yn_1, yn_1 := r.1 }

/-- R122, reading (B), which the spec does not take (log entry 3): each product is cut to 16 bits before its shift. -/
def Obligations.FilterGetStepWithCutProducts : Prop :=
  ∀ (x : S16) (s : State), s.cfg.product = .productCutTo16 →
    let r := filterGet x s
    r.1.toInt = signed16 (signed16 (s.b1.toInt * x.toInt) / 256 + signed16 (s.b2.toInt * s.xn_1.toInt) / 256
      + signed16 (s.b3.toInt * s.xn_2.toInt) / 128 - signed16 (s.a2.toInt * s.yn_1.toInt) / 64
      - signed16 (s.a3.toInt * s.yn_2.toInt) / 128) ∧
    r.2 = { s with xn_2 := s.xn_1, xn_1 := x, yn_2 := s.yn_1, yn_1 := r.1 }

/-- R122. Clause 1 is the sentence the spec marks as its own inference ("The two readings agree for t1, t2 and t3"): the two
readings agree on the terms of inputs, which lie in -128 to 127. Clause 2 is DEDUCED from R122's definition of reading (B)
(log entry 3): a product that fits 16 bits is not changed by the cut. It takes in the product -32768, where R122's next
sentence would have them differ (`|a2 * yn_1| >= 32768`): by the definition they agree there. -/
def Obligations.ProductReadingsAgreeOnSmallProducts : Prop :=
  (∀ (c : S8) (x : S16) (k : Nat), ByteRange x →
    filterTerm .fullProduct c x k = filterTerm .productCutTo16 c x k) ∧
  (∀ (c : S8) (x : S16) (k : Nat), -32768 ≤ c.toInt * x.toInt → c.toInt * x.toInt < 32768 →
    filterTerm .fullProduct c x k = filterTerm .productCutTo16 c x k)

/-- R121's first corner case: with all-zero coefficients the output is 0 whatever the history and the input, and the history
still shifts; under either reading of the product. -/
def Obligations.ZeroCoefficientsGiveZero : Prop :=
  ∀ (x : S16) (s : State), s.a2 = 0 → s.a3 = 0 → s.b1 = 0 → s.b2 = 0 → s.b3 = 0 →
    filterGet x s = (0, { s with xn_2 := s.xn_1, xn_1 := x, yn_2 := s.yn_1, yn_1 := 0 })

/-! ### Envelope and mixer (43_envelope_and_mixer.md) -/

/-- R77: the block amplitude is the accumulator's integer part clamped to 255, a value 0 to 255; up to 65535 the clamp does
not act (this last is marked by the spec as its own inference). -/
def Obligations.AmplitudeIsTheClampedIntegerPart : Prop :=
  ∀ amp : S32, 0 < amp.toInt →
    amp8 amp = min (amp.toInt / 256) 255 ∧ 0 ≤ amp8 amp ∧ amp8 amp ≤ 255 ∧
    (amp.toInt ≤ 65535 → amp8 amp = amp.toInt / 256)

/-- R134: the scaled value is the floor of the exact product over 256, and lies in -32640 to 32639. -/
def Obligations.TrebleScaleIsTheExactFloor : Prop :=
  ∀ (y : S16) (amp : Int), 0 ≤ amp → amp ≤ 255 →
    (trebleScale y amp).toInt = y.toInt * amp / 256 ∧
    -32640 ≤ (trebleScale y amp).toInt ∧ (trebleScale y amp).toInt ≤ 32639

/-- R139: the sum wraps to 16 bits; one read and one write of the slot; every other slot and all else stays. -/
def Obligations.MixAddWraps : Prop :=
  ∀ (i : Fin 8) (v : S16) (s : State),
    let t := mixAdd i v s
    t.buf[i].toInt = signed16 (s.buf[i].toInt + v.toInt) ∧
    (∀ j : Fin 8, j ≠ i → t.buf[j] = s.buf[j]) ∧
    t = { s with buf := t.buf, events := s.events ++ [.bufPair i s.buf[i] t.buf[i]] }

/-- R136, with the spec's own inference that the 32-bit wrap never acts: an active treble layer is lowered by its step once
a block, exactly and not clamped; at zero or below, a block leaves it. -/
def Obligations.TrebleDecaysLinearly : Prop :=
  ∀ s : State, ∃ t, exec .decodeBlock s = .next t ∧
    (0 < s.treble_amp.toInt → t.treble_amp.toInt = s.treble_amp.toInt - s.treble_step.toNat) ∧
    (s.treble_amp.toInt ≤ 0 → t.treble_amp = s.treble_amp)

/-- R133, which the spec marks as its own inference: with an amplitude below one unit the treble path adds 0 to every slot,
yet makes its eight draws, advances the filter eight times and lowers the accumulator. -/
def Obligations.SubUnitAmplitudeStillRuns : Prop :=
  ∀ s : State, 0 < s.treble_amp.toInt → s.treble_amp.toInt < 256 → ∃ t, exec .decodeBlock s = .next t ∧
    amp8 s.treble_amp = 0 ∧
    (∀ i : Fin 8, t.buf[i] = s.buf[i] + bassPart s i) ∧
    t.rng_count = s.rng_count + (if bassActive s then 9 else 8) ∧
    t.treble_amp.toInt = s.treble_amp.toInt - s.treble_step.toNat ∧
    t.xn_1 = (noiseSamples s).getD 7 0 ∧ t.xn_2 = (noiseSamples s).getD 6 0 ∧
    t.yn_1 = (filterOutputs (noiseSamples s) s).getD 7 0 ∧ t.yn_2 = (filterOutputs (noiseSamples s) s).getD 6 0

/-- R140, which the spec marks as its own inference: what a block adds does not depend on what the slots held, and two
voices in one zeroed buffer give the slot-wise sum of each in its own. -/
def Obligations.MixingIsAdditive : Prop :=
  (∀ (s : State) (b : Vector S16 8), ∃ t t', exec .decodeBlock s = .next t ∧ exec .decodeBlock { s with buf := b } = .next t' ∧
    (∀ i : Fin 8, t'.buf[i] - b[i] = t.buf[i] - s.buf[i]) ∧
    t' = { t with buf := t'.buf, events := t'.events }) ∧
  (∀ sA sB : State, (∀ i : Fin 8, sA.buf[i] = 0) → (∀ i : Fin 8, sB.buf[i] = 0) →
    ∃ tA tB t, exec .decodeBlock sA = .next tA ∧ exec .decodeBlock sB = .next tB ∧
      exec .decodeBlock { sB with buf := tA.buf } = .next t ∧
      ∀ i : Fin 8, t.buf[i] = tA.buf[i] + tB.buf[i])

/-- The last sentence of R142: what one block adds to a slot: from the bass -128 to 127, from the treble -32640 to 32639. -/
def Obligations.BlockContributionsAreBounded : Prop :=
  ∀ (s : State) (i : Fin 8),
    -128 ≤ (bassPart s i).toInt ∧ (bassPart s i).toInt ≤ 127 ∧
    -32640 ≤ (treblePart s i).toInt ∧ (treblePart s i).toInt ≤ 32639

/-! ### The commands (44_voice_renderer.md) -/

/-- R145: `TRIGGER` completes on every well-formed voice, every core register takes the value of the `TRIGGER` column of
10_state.md R31, nothing else changes (no slot, no byte, no draw, no access), and the status follows. -/
def Obligations.TriggerLoadsTheVoice : Prop :=
  ∀ (vd : VoiceDef) (s : State), vd.fits s.cfg = true →
    ∃ t, exec (.trigger vd) s = .next t ∧
      t = { s with
        base := vd.sampleBase
        pos := if EmptySample vd then 0 else 1
        end_pos := if EmptySample vd then 0 else BitVec.ofNat 17 (vd.sampleLen.toNat + 1)
        byte_buf := 0, sym_cnt := 0, recon_1 := 0, recon_2 := 0, modifier := s.cfg.modReset
        a2 := vd.a2, a3 := vd.a3, b1 := vd.b1, b2 := vd.b2, b3 := vd.b3
        xn_1 := 0, xn_2 := 0, yn_1 := 0, yn_2 := 0
        treble_amp := BitVec.ofNat 32 vd.initial.toNat, treble_step := vd.increment, bass_0 := 0, bass_1 := 0 } ∧
      bassActive t = !EmptySample vd ∧
      trebleActive t = decide (0 < vd.initial.toNat) ∧
      idle t = (EmptySample vd && decide (vd.initial.toNat = 0))

/-- R145, R153: nothing of the previous voice survives a `TRIGGER`: states that differ only in core registers give one next
state. -/
def Obligations.TriggerForgetsTheOldVoice : Prop :=
  ∀ (vd : VoiceDef) (s s' : State),
    s'.cfg = s.cfg → s'.buf = s.buf → s'.sample_mem = s.sample_mem → s'.events = s.events → s'.host_in = s.host_in →
    s'.rng_in = s.rng_in → s'.rng_count = s.rng_count → s'.free_count = s.free_count →
    exec (.trigger vd) s' = exec (.trigger vd) s

/-- R145: the frame of `TRIGGER`, for any operand: no slot, no byte of sample memory, no access, no draw, no input. -/
def Obligations.TriggerTouchesRegistersOnly : Prop :=
  ∀ (vd : VoiceDef) (s t : State), exec (.trigger vd) s = .next t →
    t.buf = s.buf ∧ (∀ a, t.sample_mem.read a = s.sample_mem.read a) ∧ t.sample_mem = s.sample_mem ∧
    t.events = s.events ∧ t.rng_in = s.rng_in ∧ t.rng_count = s.rng_count ∧ t.host_in = s.host_in ∧
    t.cfg = s.cfg ∧ t.free_count = s.free_count

/-- R146 with R138 and R135: `DECODE_BLOCK` completes in every state, and each slot gains what the active layers add. -/
def Obligations.DecodeBlockAddsTheActiveLayers : Prop :=
  ∀ s : State, ∃ t, exec .decodeBlock s = .next t ∧
    ∀ i : Fin 8, t.buf[i] = s.buf[i] + bassPart s i + treblePart s i

/-- R146 with R138 and R135: the registers after a `DECODE_BLOCK`, which completes in every state. -/
def Obligations.DecodeBlockAdvancesTheActiveLayers : Prop :=
  ∀ s : State, ∃ t, exec .decodeBlock s = .next t ∧
    (bassActive s = true → ∃ g, deltaGet s = .next g ∧ t.pos = g.pos ∧ t.byte_buf = g.byte_buf ∧ t.sym_cnt = g.sym_cnt ∧
      t.recon_1 = g.recon_1 ∧ t.recon_2 = g.recon_2 ∧ t.modifier = g.modifier ∧
      t.bass_0 = g.recon_1 ∧ t.bass_1 = s.bass_0) ∧
    (trebleActive s = true →
      t.treble_amp.toInt = s.treble_amp.toInt - s.treble_step.toNat ∧
      t.xn_1 = (noiseSamples s).getD 7 0 ∧ t.xn_2 = (noiseSamples s).getD 6 0 ∧
      t.yn_1 = (filterOutputs (noiseSamples s) s).getD 7 0 ∧ t.yn_2 = (filterOutputs (noiseSamples s) s).getD 6 0)

/-- R146: the frame of `DECODE_BLOCK`: what it never changes, and what an inactive layer leaves. -/
def Obligations.DecodeBlockFrame : Prop :=
  ∀ s t : State, exec .decodeBlock s = .next t →
    t.cfg = s.cfg ∧ t.base = s.base ∧ t.end_pos = s.end_pos ∧ t.a2 = s.a2 ∧ t.a3 = s.a3 ∧ t.b1 = s.b1 ∧ t.b2 = s.b2 ∧
    t.b3 = s.b3 ∧ t.treble_step = s.treble_step ∧ t.host_in = s.host_in ∧ t.free_count = s.free_count ∧
    (∀ a, t.sample_mem.read a = s.sample_mem.read a) ∧
    (bassActive s = false → t.pos = s.pos ∧ t.byte_buf = s.byte_buf ∧ t.sym_cnt = s.sym_cnt ∧ t.recon_1 = s.recon_1 ∧
      t.recon_2 = s.recon_2 ∧ t.modifier = s.modifier ∧ t.bass_0 = s.bass_0 ∧ t.bass_1 = s.bass_1) ∧
    (trebleActive s = false → t.treble_amp = s.treble_amp ∧ t.xn_1 = s.xn_1 ∧ t.xn_2 = s.xn_2 ∧ t.yn_1 = s.yn_1 ∧
      t.yn_2 = s.yn_2)

/-- R152, which the spec marks as its own inference: on an idle core a `DECODE_BLOCK` changes nothing: no register, no slot,
no draw, no read. -/
def Obligations.IdleBlockIsANoOp : Prop :=
  ∀ s : State, idle s = true → exec .decodeBlock s = .next s

/-- R150: the number of draws of a block, and that it takes the next ones. -/
def Obligations.BlockDrawCount : Prop :=
  ∀ s : State, ∃ t, exec .decodeBlock s = .next t ∧
    let n := if bassActive s then (if trebleActive s then 9 else 1) else (if trebleActive s then 8 else 0)
    t.rng_count = s.rng_count + n ∧ t.rng_in = s.rng_in.drop n

/-- R64 and R151, which the spec marks as its own inferences, with the order of draws of R150: every access of a block, in
order, with its address, its slot and its values; a `TRIGGER` makes none. -/
def Obligations.CommandAccessesInOrder : Prop :=
  (∀ s : State, ∃ t, exec .decodeBlock s = .next t ∧ t.events = s.events ++ bassEvents s ++ trebleEvents s) ∧
  (∀ (vd : VoiceDef) (s : State), ∃ t, exec (.trigger vd) s = .next t ∧ t.events = s.events ∧
    t.rng_count = s.rng_count ∧ t.rng_in = s.rng_in)

/-- R29: a `DECODE_BLOCK` can only clear `bass_active` and `treble_active`, and `idle` is neither of them. -/
def Obligations.DecodeBlockOnlyClearsStatus : Prop :=
  (∀ s t : State, exec .decodeBlock s = .next t →
    (bassActive t = true → bassActive s = true) ∧ (trebleActive t = true → trebleActive s = true)) ∧
  (∀ s : State, (idle s = true ↔ ¬ s.pos.toNat < s.end_pos.toNat ∧ ¬ 0 < s.treble_amp.toInt))

/-- R147, and R105, which the spec marks as its own inference: nothing but `TRIGGER` leaves idle, and an inactive decoder
stays inactive: whatever the host does next, unless it is a `TRIGGER`. -/
def Obligations.OnlyTriggerLeavesIdle : Prop :=
  ∀ s t : State, NextIsNotTrigger s → step s = .next t →
    (idle s = true → idle t = true) ∧ (bassActive s = false → bassActive t = false) ∧
    (trebleActive s = false → trebleActive t = false)

/-- R148 with R103 and R137, which the spec marks as its own inferences: after a `TRIGGER`, the bass layer is active for
exactly the first `4L - 3` blocks, the treble layer for exactly the first `ceil(A / I)`, or for ever where `I` is 0 and `A`
is not. -/
def Obligations.LifeOfAVoice : Prop :=
  ∀ (vd : VoiceDef) (s : State), vd.fits s.cfg = true → ∃ t, exec (.trigger vd) s = .next t ∧
    ∀ k : Nat, ∃ u, blocks k t = .next u ∧
      (bassActive u = true ↔ EmptySample vd = false ∧ k < 4 * vd.sampleLen.toNat - 3) ∧
      (trebleActive u = true ↔ 0 < vd.initial.toNat ∧ (vd.increment.toNat = 0 ∨
        k < (vd.initial.toNat + vd.increment.toNat - 1) / vd.increment.toNat))

/-- R137, which the spec marks as its own inference: after a `TRIGGER` with `A` above 0 the accumulator after `k` blocks is
`A` less `I` for each block the treble path ran in, and it ran in `ceil(A / I)` of them at most; while it runs the amplitude
of the next block is the integer part. -/
def Obligations.AmplitudeStaircase : Prop :=
  ∀ (vd : VoiceDef) (s : State), vd.fits s.cfg = true → 0 < vd.initial.toNat → ∃ t, exec (.trigger vd) s = .next t ∧
    ∀ k : Nat, ∃ u, blocks k t = .next u ∧
      let I := vd.increment.toNat
      let ran := if I = 0 then k else min k ((vd.initial.toNat + I - 1) / I)
      u.treble_amp.toInt = (vd.initial.toNat : Int) - ran * I ∧
      (trebleActive u = true → amp8 u.treble_amp = ((vd.initial.toNat : Int) - k * I) / 256)

/-! ### Memory and the host (20_memory.md, 10_state.md R28) -/

/-- R55: no instruction writes the sample space, the parameters or the host's inputs. -/
def Obligations.NoInstructionWritesSampleMemory : Prop :=
  ∀ (i : Instr) (s t : State), exec i s = .next t →
    (∀ a, t.sample_mem.read a = s.sample_mem.read a) ∧ t.sample_mem = s.sample_mem ∧ t.cfg = s.cfg ∧ t.host_in = s.host_in

/-- The last sentences of R103, which the spec marks as its own inference: the header byte has no effect: with any byte
there a block gives the same next state, where the sample does not come round to its own header. -/
def Obligations.HeaderByteHasNoEffect : Prop :=
  ∀ (s : State) (b : U8), Inv s → s.end_pos.toNat ≤ 2 ^ s.cfg.addrW →
    ∃ t, exec .decodeBlock s = .next t ∧
      exec .decodeBlock { s with sample_mem := s.sample_mem.write s.base b } =
        .next { t with sample_mem := s.sample_mem.write s.base b }

/-- R63: a byte the host may change reads as the new value from then on, every other byte as before, and the byte already
fetched stays what it was; a fetch of its address, in the next state or in any later one with that memory (a voice triggered
on it, say), brings the new value. The address is taken modulo 2^ADDR_W (log entry 28, the model's choice). A byte of an
active sample the host may not change: that write is refused (log entry 15, the model's choice). -/
def Obligations.HostWriteIsSeenByLaterFetches : Prop :=
  ∀ (s : State) (a : Nat) (b : U8) (rest : List HostAction), Memory.wf s.sample_mem →
    s.host_in = .writeSample a b :: rest →
    (ActiveSampleByte s (a % 2 ^ s.cfg.addrW) → step s = .refused .hostWriteToActiveSample) ∧
    (¬ ActiveSampleByte s (a % 2 ^ s.cfg.addrW) → ∃ t, step s = .next t ∧
      t.sample_mem.read (a % 2 ^ s.cfg.addrW) = b ∧
      (∀ x, x ≠ a % 2 ^ s.cfg.addrW → t.sample_mem.read x = s.sample_mem.read x) ∧
      t = { s with host_in := rest, sample_mem := t.sample_mem } ∧
      ∀ u : State, u.sample_mem = t.sample_mem → u.sym_cnt = 0 → u.pos ≠ u.end_pos →
        sampleAddress u = a % 2 ^ s.cfg.addrW → (fetch u).byte_buf = b)

/-- R28, R53: the host writes one slot and reads one slot; nothing else changes but the history of what it read (log entry
19). -/
def Obligations.HostAccessesOneSlot : Prop :=
  (∀ (s : State) (i : Fin 8) (v : S16) (rest : List HostAction), s.host_in = .writeSlot i v :: rest →
    ∃ t, step s = .next t ∧ t.buf[i] = v ∧ (∀ j : Fin 8, j ≠ i → t.buf[j] = s.buf[j]) ∧
      t = { s with host_in := rest, buf := t.buf }) ∧
  (∀ (s : State) (i : Fin 8) (rest : List HostAction), s.host_in = .readSlot i :: rest →
    step s = .next { s with host_in := rest, events := s.events ++ [.hostRead i s.buf[i]] })

/-! ### Reset (70_reset_and_hazards.md R180, 10_state.md R31) -/

/-- R31, R180: after reset every core register is 0, both layers are inactive and the core is idle. -/
def Obligations.ResetLeavesTheCoreIdle : Prop :=
  RegistersReset State.reset ∧ bassActive State.reset = false ∧ trebleActive State.reset = false ∧ idle State.reset = true

/-- R180, R28: `rst`, alone or together with a command, which is ignored, zeroes every core register and leaves `BUF`. That
it leaves the sample memory and all else is read from the spec by inference (log entry 18). -/
def Obligations.RstZeroesTheRegisters : Prop :=
  ∀ (s : State) (rest : List HostAction),
    (s.host_in = .reset :: rest ∨ ∃ cmd operand, s.host_in = .resetWithCommand cmd operand :: rest) →
    ∃ t, step s = .next t ∧ RegistersReset t ∧ idle t = true ∧
      t.buf = s.buf ∧ t.sample_mem = s.sample_mem ∧ t.cfg = s.cfg ∧ t.events = s.events ∧ t.host_in = rest ∧
      t.rng_in = s.rng_in ∧ t.rng_count = s.rng_count ∧ t.free_count = s.free_count

/-- R180: `rst` during a command abandons it: every core register is 0 and sample memory is untouched (log entry 18); where
the command had no slot to add into (a `TRIGGER`, or an idle core) `BUF` and the history are untouched too. A block on an
active core has made the first few of its own accesses, in the order of R64 and R151, and no other; a slot it has added into
holds a free value (U4, log entry 17), of which nothing is said, and every other slot is as it was. -/
def Obligations.RstDuringACommandAbandonsIt : Prop :=
  ∀ (s : State) (cmd : BitVec 1) (operand : Nat) (rest : List HostAction),
    s.host_in = .resetDuringCommand cmd operand :: rest →
    ∃ t, step s = .next t ∧ RegistersReset t ∧ idle t = true ∧
      t.sample_mem = s.sample_mem ∧ t.cfg = s.cfg ∧ t.host_in = rest ∧
      t.rng_count ≤ s.rng_count + blockDraws s ∧
      ((cmd = 0#1 ∨ idle s = true) →
        t.buf = s.buf ∧ t.events = s.events ∧ t.rng_in = s.rng_in ∧ t.rng_count = s.rng_count) ∧
      (cmd = 1#1 → idle s = false → ∃ n,
        let done := (bassEvents s ++ trebleEvents s).take n
        t.events = s.events ++ done ∧
        t.rng_in = s.rng_in.drop (done.countP isDraw) ∧ t.rng_count = s.rng_count + done.countP isDraw ∧
        ∀ i : Fin 8, (∀ e ∈ done, addsInto i e = false) → t.buf[i] = s.buf[i])

/-! ### The invariant (10_state.md R32) -/

/-- R32, which the spec marks as its own inference: it holds after reset. -/
def Obligations.InvHoldsAtReset : Prop := Inv State.reset

/-- R32, which the spec marks as its own inference: every step keeps it, whatever the host does. -/
def Obligations.EveryStepKeepsInv : Prop :=
  ∀ s t : State, Inv s → step s = .next t → Inv t
end

