-- ==== Sys2Proof/Laws/Arith.lean ====
section
/-! SUPPORT. The arithmetic of 00_scope.md R12 and R13: what a wrap and a shift give as integers, and where they change
nothing. -/

namespace Sys2Proof.Machine

open Sys2Proof.Safety

theorem s8_range (v : S8) : -128 ≤ v.toInt ∧ v.toInt ≤ 127 := by
  have h1 := v.le_toInt
  have h2 := v.toInt_lt
  norm_num at h1 h2
  omega

theorem s16_range (v : S16) : -32768 ≤ v.toInt ∧ v.toInt ≤ 32767 := by
  have h1 := v.le_toInt
  have h2 := v.toInt_lt
  norm_num at h1 h2
  omega

theorem s32_range (v : S32) : -2147483648 ≤ v.toInt ∧ v.toInt ≤ 2147483647 := by
  have h1 := v.le_toInt
  have h2 := v.toInt_lt
  norm_num at h1 h2
  omega

/-- `wrapS_8` gives the congruent value in the signed range (R12). -/
theorem wrapS_8_toInt (z : Int) : (wrapS 8 z).toInt = signed8 z := by
  simp only [wrapS, BitVec.toInt_ofInt, Int.bmod_def, signed8]
  omega

/-- `wrapS_16` gives the congruent value in the signed range (R12). -/
theorem wrapS_16_toInt (z : Int) : (wrapS 16 z).toInt = signed16 z := by
  simp only [wrapS, BitVec.toInt_ofInt, Int.bmod_def, signed16]
  omega

theorem signed8_of_range {z : Int} (h : -128 ≤ z ∧ z ≤ 127) : signed8 z = z := by
  unfold signed8; omega

theorem signed16_of_range {z : Int} (h : -32768 ≤ z ∧ z ≤ 32767) : signed16 z = z := by
  unfold signed16; omega

/-- A 32-bit wrap changes nothing inside the range (R136). -/
theorem wrapS_32_of_range {z : Int} (h : -2147483648 ≤ z ∧ z ≤ 2147483647) : (wrapS 32 z).toInt = z := by
  simp only [wrapS, BitVec.toInt_ofInt, Int.bmod_def]
  omega

/-- The 16-bit sum of two slot values is their sum as bit patterns. -/
theorem wrapS_16_add (a b : S16) : wrapS 16 (a.toInt + b.toInt) = a + b := by
  simp [wrapS, BitVec.ofInt_add]

/-- Sign extension keeps the value (R75). -/
theorem sext16_toInt (v : S8) : (sext16 v).toInt = v.toInt :=
  BitVec.toInt_signExtend_of_le (by decide)

theorem noiseSample_range (d : U8) : ByteRange (noiseSample d) := by
  have := s8_range d
  simpa [ByteRange, noiseSample, sext16_toInt] using this

/-- The average is the floor of half the exact sum: nothing wraps (R110). -/
theorem average_toInt (a b : S8) {d : Int} (hd : d = 0 ∨ d = 1) :
    (average a b d).toInt = (a.toInt + b.toInt + d) / 2 := by
  have ha := s8_range a
  have hb := s8_range b
  rw [average, wrapS_8_toInt, asr, pow_one, signed8_of_range]
  omega

theorem ditherBit_cases (w : U8) (j : Nat) : ditherBit w j = 0 ∨ ditherBit w j = 1 := by
  unfold ditherBit; split <;> simp

/-- A byte times a slot value has at most 24 bits. -/
theorem product_range {c x : Int} {b : Int} (hc : -128 ≤ c ∧ c ≤ 128) (hx : -b ≤ x ∧ x ≤ b) :
    -(128 * b) ≤ c * x ∧ c * x ≤ 128 * b := by
  constructor <;> nlinarith [mul_nonneg (sub_nonneg.2 hc.1) (sub_nonneg.2 hx.1),
    mul_nonneg (sub_nonneg.2 hc.1) (sub_nonneg.2 hx.2), mul_nonneg (sub_nonneg.2 hc.2) (sub_nonneg.2 hx.1),
    mul_nonneg (sub_nonneg.2 hc.2) (sub_nonneg.2 hx.2)]

/-- The scaled value is the floor of the exact product over 256: nothing wraps (R134). -/
theorem trebleScale_toInt (y : S16) {amp : Int} (ha : 0 ≤ amp ∧ amp ≤ 255) :
    (trebleScale y amp).toInt = y.toInt * amp / 256 := by
  have hy := s16_range y
  have h1 : -32768 * 255 ≤ y.toInt * amp := by nlinarith
  have h2 : y.toInt * amp ≤ 32767 * 255 := by nlinarith
  rw [trebleScale, wrapS_16_toInt, asr, show ((2 : Int) ^ 8) = 256 from rfl, signed16_of_range]
  omega

end Sys2Proof.Machine
end

