-- ==== Sys2Proof/Laws/Memory.lean ====
section
/-! SUPPORT. The laws of sample memory: a read after a write to the same address gives the byte written, a write leaves
every other address alone, and a write keeps the canonical form. -/

namespace Sys2Proof.Machine

theorem Memory.read_write_same (m : Memory) (h : Memory.wf m) (a : Nat) (b : U8) : (m.write a b).read a = b := by
  induction m with
  | nil => simp only [Memory.write]; split <;> simp_all [Memory.read]
  | cons c m ih =>
    obtain ⟨k, v⟩ := c
    have hm : Memory.wf m := ⟨(List.pairwise_cons.1 h.1).2, fun c hc => h.2 c (List.mem_cons_of_mem _ hc)⟩
    have absent : ∀ x, (∀ c ∈ m, x < c.1) → Memory.read m x = Memory.blank := by
      intro x hx
      clear ih h hm
      induction m with
      | nil => rfl
      | cons d m ih =>
        have h1 := hx d (List.mem_cons_self ..)
        simp only [Memory.read]
        rw [if_neg (by omega), ih fun c hc => hx c (List.mem_cons_of_mem _ hc)]
    have hk := (List.pairwise_cons.1 h.1).1
    simp only [Memory.write]
    split
    · rename_i hlt
      split
      · subst b
        simp only [Memory.read]
        rw [if_neg (by omega), absent a fun c hc => by have := hk c hc; simp at this; omega]
      · simp [Memory.read]
    · split
      · rename_i heq
        subst heq
        split
        · subst b; exact absent a fun c hc => hk c hc
        · simp [Memory.read]
      · simp only [Memory.read]
        rw [if_neg (by omega), ih hm]

theorem Memory.read_write_other (m : Memory) {a x : Nat} (hx : x ≠ a) (b : U8) :
    (m.write a b).read x = m.read x := by
  induction m with
  | nil => simp only [Memory.write]; split <;> simp [Memory.read, hx.symm]
  | cons c m ih =>
    obtain ⟨k, v⟩ := c
    simp only [Memory.write]
    split
    · split
      · rfl
      · simp [Memory.read, hx.symm]
    · split
      · rename_i heq
        subst heq
        split <;> simp [Memory.read, hx.symm]
      · simp only [Memory.read, ih]

theorem Memory.mem_write {m : Memory} {a : Nat} {b : U8} {c : Host.Cell} (hc : c ∈ m.write a b) :
    c = (a, b) ∨ c ∈ m := by
  induction m with
  | nil => simp only [Memory.write] at hc; split at hc <;> simp_all
  | cons d m ih =>
    obtain ⟨k, v⟩ := d
    simp only [Memory.write] at hc
    split at hc
    · split at hc <;> simp_all
    · split at hc
      · split at hc
        · exact .inr (List.mem_cons_of_mem _ hc)
        · exact (List.mem_cons.1 hc).imp id (List.mem_cons_of_mem _)
      · rcases List.mem_cons.1 hc with h | h
        · exact .inr (h ▸ List.mem_cons_self ..)
        · exact (ih h).imp id (List.mem_cons_of_mem _)

/-- Every write keeps the canonical form. -/
theorem Memory.write_wf (m : Memory) (h : Memory.wf m) (a : Nat) (b : U8) : Memory.wf (m.write a b) := by
  induction m with
  | nil => simp only [Memory.write]; split <;> simp_all [Memory.wf]
  | cons c m ih =>
    obtain ⟨k, v⟩ := c
    have hk := (List.pairwise_cons.1 h.1).1
    have hm : Memory.wf m := ⟨(List.pairwise_cons.1 h.1).2, fun c hc => h.2 c (List.mem_cons_of_mem _ hc)⟩
    have hv : v ≠ Memory.blank := h.2 (k, v) (List.mem_cons_self ..)
    simp only [Memory.write]
    split
    · rename_i hlt
      split
      · exact h
      · refine ⟨List.pairwise_cons.2 ⟨fun c hc => ?_, h.1⟩, fun c hc => ?_⟩
        · rcases List.mem_cons.1 hc with rfl | hc
          · exact hlt
          · exact hlt.trans (hk c hc)
        · rcases List.mem_cons.1 hc with rfl | hc
          · assumption
          · exact h.2 c hc
    · split
      · rename_i heq
        subst heq
        split
        · exact hm
        · refine ⟨List.pairwise_cons.2 ⟨hk, hm.1⟩, fun c hc => ?_⟩
          rcases List.mem_cons.1 hc with rfl | hc
          · assumption
          · exact hm.2 c hc
      · refine ⟨List.pairwise_cons.2 ⟨fun c hc => ?_, (ih hm).1⟩, fun c hc => ?_⟩
        · rcases Memory.mem_write hc with rfl | hc
          · simp; omega
          · exact hk c hc
        · rcases List.mem_cons.1 hc with rfl | hc
          · exact hv
          · exact (ih hm).2 c hc

/-- Reset lists nothing. -/
theorem State.reset_mem_wf : Memory.wf State.reset.sample_mem := by decide

end Sys2Proof.Machine
end

