-- ==== Sys2Proof/Laws/State.lean ====
section
/-! SUPPORT. Beside State: for each named update, what each field holds after it. Every lemma is true by definition; with
them no later proof unfolds a record update. -/

namespace Sys2Proof.Machine

/-! ### record -/

@[simp] theorem record_cfg (e : Event) (s : State) : (record e s).cfg = s.cfg := rfl
@[simp] theorem record_base (e : Event) (s : State) : (record e s).base = s.base := rfl
@[simp] theorem record_pos (e : Event) (s : State) : (record e s).pos = s.pos := rfl
@[simp] theorem record_end_pos (e : Event) (s : State) : (record e s).end_pos = s.end_pos := rfl
@[simp] theorem record_byte_buf (e : Event) (s : State) : (record e s).byte_buf = s.byte_buf := rfl
@[simp] theorem record_sym_cnt (e : Event) (s : State) : (record e s).sym_cnt = s.sym_cnt := rfl
@[simp] theorem record_recon_1 (e : Event) (s : State) : (record e s).recon_1 = s.recon_1 := rfl
@[simp] theorem record_recon_2 (e : Event) (s : State) : (record e s).recon_2 = s.recon_2 := rfl
@[simp] theorem record_modifier (e : Event) (s : State) : (record e s).modifier = s.modifier := rfl
@[simp] theorem record_a2 (e : Event) (s : State) : (record e s).a2 = s.a2 := rfl
@[simp] theorem record_a3 (e : Event) (s : State) : (record e s).a3 = s.a3 := rfl
@[simp] theorem record_b1 (e : Event) (s : State) : (record e s).b1 = s.b1 := rfl
@[simp] theorem record_b2 (e : Event) (s : State) : (record e s).b2 = s.b2 := rfl
@[simp] theorem record_b3 (e : Event) (s : State) : (record e s).b3 = s.b3 := rfl
@[simp] theorem record_xn_1 (e : Event) (s : State) : (record e s).xn_1 = s.xn_1 := rfl
@[simp] theorem record_xn_2 (e : Event) (s : State) : (record e s).xn_2 = s.xn_2 := rfl
@[simp] theorem record_yn_1 (e : Event) (s : State) : (record e s).yn_1 = s.yn_1 := rfl
@[simp] theorem record_yn_2 (e : Event) (s : State) : (record e s).yn_2 = s.yn_2 := rfl
@[simp] theorem record_treble_amp (e : Event) (s : State) : (record e s).treble_amp = s.treble_amp := rfl
@[simp] theorem record_treble_step (e : Event) (s : State) : (record e s).treble_step = s.treble_step := rfl
@[simp] theorem record_bass_0 (e : Event) (s : State) : (record e s).bass_0 = s.bass_0 := rfl
@[simp] theorem record_bass_1 (e : Event) (s : State) : (record e s).bass_1 = s.bass_1 := rfl
@[simp] theorem record_buf (e : Event) (s : State) : (record e s).buf = s.buf := rfl
@[simp] theorem record_sample_mem (e : Event) (s : State) : (record e s).sample_mem = s.sample_mem := rfl
@[simp] theorem record_events (e : Event) (s : State) : (record e s).events = s.events ++ [e] := rfl
@[simp] theorem record_host_in (e : Event) (s : State) : (record e s).host_in = s.host_in := rfl
@[simp] theorem record_rng_in (e : Event) (s : State) : (record e s).rng_in = s.rng_in := rfl
@[simp] theorem record_rng_count (e : Event) (s : State) : (record e s).rng_count = s.rng_count := rfl
@[simp] theorem record_free_count (e : Event) (s : State) : (record e s).free_count = s.free_count := rfl

/-! ### rngByte -/

@[simp] theorem rngByte_cfg (s : State) : (rngByte s).2.cfg = s.cfg := rfl
@[simp] theorem rngByte_base (s : State) : (rngByte s).2.base = s.base := rfl
@[simp] theorem rngByte_pos (s : State) : (rngByte s).2.pos = s.pos := rfl
@[simp] theorem rngByte_end_pos (s : State) : (rngByte s).2.end_pos = s.end_pos := rfl
@[simp] theorem rngByte_byte_buf (s : State) : (rngByte s).2.byte_buf = s.byte_buf := rfl
@[simp] theorem rngByte_sym_cnt (s : State) : (rngByte s).2.sym_cnt = s.sym_cnt := rfl
@[simp] theorem rngByte_recon_1 (s : State) : (rngByte s).2.recon_1 = s.recon_1 := rfl
@[simp] theorem rngByte_recon_2 (s : State) : (rngByte s).2.recon_2 = s.recon_2 := rfl
@[simp] theorem rngByte_modifier (s : State) : (rngByte s).2.modifier = s.modifier := rfl
@[simp] theorem rngByte_a2 (s : State) : (rngByte s).2.a2 = s.a2 := rfl
@[simp] theorem rngByte_a3 (s : State) : (rngByte s).2.a3 = s.a3 := rfl
@[simp] theorem rngByte_b1 (s : State) : (rngByte s).2.b1 = s.b1 := rfl
@[simp] theorem rngByte_b2 (s : State) : (rngByte s).2.b2 = s.b2 := rfl
@[simp] theorem rngByte_b3 (s : State) : (rngByte s).2.b3 = s.b3 := rfl
@[simp] theorem rngByte_xn_1 (s : State) : (rngByte s).2.xn_1 = s.xn_1 := rfl
@[simp] theorem rngByte_xn_2 (s : State) : (rngByte s).2.xn_2 = s.xn_2 := rfl
@[simp] theorem rngByte_yn_1 (s : State) : (rngByte s).2.yn_1 = s.yn_1 := rfl
@[simp] theorem rngByte_yn_2 (s : State) : (rngByte s).2.yn_2 = s.yn_2 := rfl
@[simp] theorem rngByte_treble_amp (s : State) : (rngByte s).2.treble_amp = s.treble_amp := rfl
@[simp] theorem rngByte_treble_step (s : State) : (rngByte s).2.treble_step = s.treble_step := rfl
@[simp] theorem rngByte_bass_0 (s : State) : (rngByte s).2.bass_0 = s.bass_0 := rfl
@[simp] theorem rngByte_bass_1 (s : State) : (rngByte s).2.bass_1 = s.bass_1 := rfl
@[simp] theorem rngByte_buf (s : State) : (rngByte s).2.buf = s.buf := rfl
@[simp] theorem rngByte_sample_mem (s : State) : (rngByte s).2.sample_mem = s.sample_mem := rfl
@[simp] theorem rngByte_events (s : State) : (rngByte s).2.events = s.events ++ [.rngByte (nextDraw s)] := rfl
@[simp] theorem rngByte_host_in (s : State) : (rngByte s).2.host_in = s.host_in := rfl
@[simp] theorem rngByte_rng_in (s : State) : (rngByte s).2.rng_in = s.rng_in.tail := rfl
@[simp] theorem rngByte_rng_count (s : State) : (rngByte s).2.rng_count = s.rng_count + 1 := rfl
@[simp] theorem rngByte_free_count (s : State) : (rngByte s).2.free_count = s.free_count := rfl

/-! ### sampleRead -/

@[simp] theorem sampleRead_cfg (a : Nat) (s : State) : (sampleRead a s).2.cfg = s.cfg := rfl
@[simp] theorem sampleRead_base (a : Nat) (s : State) : (sampleRead a s).2.base = s.base := rfl
@[simp] theorem sampleRead_pos (a : Nat) (s : State) : (sampleRead a s).2.pos = s.pos := rfl
@[simp] theorem sampleRead_end_pos (a : Nat) (s : State) : (sampleRead a s).2.end_pos = s.end_pos := rfl
@[simp] theorem sampleRead_byte_buf (a : Nat) (s : State) : (sampleRead a s).2.byte_buf = s.byte_buf := rfl
@[simp] theorem sampleRead_sym_cnt (a : Nat) (s : State) : (sampleRead a s).2.sym_cnt = s.sym_cnt := rfl
@[simp] theorem sampleRead_recon_1 (a : Nat) (s : State) : (sampleRead a s).2.recon_1 = s.recon_1 := rfl
@[simp] theorem sampleRead_recon_2 (a : Nat) (s : State) : (sampleRead a s).2.recon_2 = s.recon_2 := rfl
@[simp] theorem sampleRead_modifier (a : Nat) (s : State) : (sampleRead a s).2.modifier = s.modifier := rfl
@[simp] theorem sampleRead_a2 (a : Nat) (s : State) : (sampleRead a s).2.a2 = s.a2 := rfl
@[simp] theorem sampleRead_a3 (a : Nat) (s : State) : (sampleRead a s).2.a3 = s.a3 := rfl
@[simp] theorem sampleRead_b1 (a : Nat) (s : State) : (sampleRead a s).2.b1 = s.b1 := rfl
@[simp] theorem sampleRead_b2 (a : Nat) (s : State) : (sampleRead a s).2.b2 = s.b2 := rfl
@[simp] theorem sampleRead_b3 (a : Nat) (s : State) : (sampleRead a s).2.b3 = s.b3 := rfl
@[simp] theorem sampleRead_xn_1 (a : Nat) (s : State) : (sampleRead a s).2.xn_1 = s.xn_1 := rfl
@[simp] theorem sampleRead_xn_2 (a : Nat) (s : State) : (sampleRead a s).2.xn_2 = s.xn_2 := rfl
@[simp] theorem sampleRead_yn_1 (a : Nat) (s : State) : (sampleRead a s).2.yn_1 = s.yn_1 := rfl
@[simp] theorem sampleRead_yn_2 (a : Nat) (s : State) : (sampleRead a s).2.yn_2 = s.yn_2 := rfl
@[simp] theorem sampleRead_treble_amp (a : Nat) (s : State) : (sampleRead a s).2.treble_amp = s.treble_amp := rfl
@[simp] theorem sampleRead_treble_step (a : Nat) (s : State) : (sampleRead a s).2.treble_step = s.treble_step := rfl
@[simp] theorem sampleRead_bass_0 (a : Nat) (s : State) : (sampleRead a s).2.bass_0 = s.bass_0 := rfl
@[simp] theorem sampleRead_bass_1 (a : Nat) (s : State) : (sampleRead a s).2.bass_1 = s.bass_1 := rfl
@[simp] theorem sampleRead_buf (a : Nat) (s : State) : (sampleRead a s).2.buf = s.buf := rfl
@[simp] theorem sampleRead_sample_mem (a : Nat) (s : State) : (sampleRead a s).2.sample_mem = s.sample_mem := rfl
@[simp] theorem sampleRead_events (a : Nat) (s : State) : (sampleRead a s).2.events = s.events ++ [.sampleRead a (s.sample_mem.read a)] := rfl
@[simp] theorem sampleRead_host_in (a : Nat) (s : State) : (sampleRead a s).2.host_in = s.host_in := rfl
@[simp] theorem sampleRead_rng_in (a : Nat) (s : State) : (sampleRead a s).2.rng_in = s.rng_in := rfl
@[simp] theorem sampleRead_rng_count (a : Nat) (s : State) : (sampleRead a s).2.rng_count = s.rng_count := rfl
@[simp] theorem sampleRead_free_count (a : Nat) (s : State) : (sampleRead a s).2.free_count = s.free_count := rfl

/-! ### bufWrite -/

@[simp] theorem bufWrite_cfg (i : Fin 8) (v : S16) (s : State) : (bufWrite i v s).cfg = s.cfg := rfl
@[simp] theorem bufWrite_base (i : Fin 8) (v : S16) (s : State) : (bufWrite i v s).base = s.base := rfl
@[simp] theorem bufWrite_pos (i : Fin 8) (v : S16) (s : State) : (bufWrite i v s).pos = s.pos := rfl
@[simp] theorem bufWrite_end_pos (i : Fin 8) (v : S16) (s : State) : (bufWrite i v s).end_pos = s.end_pos := rfl
@[simp] theorem bufWrite_byte_buf (i : Fin 8) (v : S16) (s : State) : (bufWrite i v s).byte_buf = s.byte_buf := rfl
@[simp] theorem bufWrite_sym_cnt (i : Fin 8) (v : S16) (s : State) : (bufWrite i v s).sym_cnt = s.sym_cnt := rfl
@[simp] theorem bufWrite_recon_1 (i : Fin 8) (v : S16) (s : State) : (bufWrite i v s).recon_1 = s.recon_1 := rfl
@[simp] theorem bufWrite_recon_2 (i : Fin 8) (v : S16) (s : State) : (bufWrite i v s).recon_2 = s.recon_2 := rfl
@[simp] theorem bufWrite_modifier (i : Fin 8) (v : S16) (s : State) : (bufWrite i v s).modifier = s.modifier := rfl
@[simp] theorem bufWrite_a2 (i : Fin 8) (v : S16) (s : State) : (bufWrite i v s).a2 = s.a2 := rfl
@[simp] theorem bufWrite_a3 (i : Fin 8) (v : S16) (s : State) : (bufWrite i v s).a3 = s.a3 := rfl
@[simp] theorem bufWrite_b1 (i : Fin 8) (v : S16) (s : State) : (bufWrite i v s).b1 = s.b1 := rfl
@[simp] theorem bufWrite_b2 (i : Fin 8) (v : S16) (s : State) : (bufWrite i v s).b2 = s.b2 := rfl
@[simp] theorem bufWrite_b3 (i : Fin 8) (v : S16) (s : State) : (bufWrite i v s).b3 = s.b3 := rfl
@[simp] theorem bufWrite_xn_1 (i : Fin 8) (v : S16) (s : State) : (bufWrite i v s).xn_1 = s.xn_1 := rfl
@[simp] theorem bufWrite_xn_2 (i : Fin 8) (v : S16) (s : State) : (bufWrite i v s).xn_2 = s.xn_2 := rfl
@[simp] theorem bufWrite_yn_1 (i : Fin 8) (v : S16) (s : State) : (bufWrite i v s).yn_1 = s.yn_1 := rfl
@[simp] theorem bufWrite_yn_2 (i : Fin 8) (v : S16) (s : State) : (bufWrite i v s).yn_2 = s.yn_2 := rfl
@[simp] theorem bufWrite_treble_amp (i : Fin 8) (v : S16) (s : State) : (bufWrite i v s).treble_amp = s.treble_amp := rfl
@[simp] theorem bufWrite_treble_step (i : Fin 8) (v : S16) (s : State) : (bufWrite i v s).treble_step = s.treble_step := rfl
@[simp] theorem bufWrite_bass_0 (i : Fin 8) (v : S16) (s : State) : (bufWrite i v s).bass_0 = s.bass_0 := rfl
@[simp] theorem bufWrite_bass_1 (i : Fin 8) (v : S16) (s : State) : (bufWrite i v s).bass_1 = s.bass_1 := rfl
@[simp] theorem bufWrite_buf (i : Fin 8) (v : S16) (s : State) : (bufWrite i v s).buf = s.buf.set i v := rfl
@[simp] theorem bufWrite_sample_mem (i : Fin 8) (v : S16) (s : State) : (bufWrite i v s).sample_mem = s.sample_mem := rfl
@[simp] theorem bufWrite_events (i : Fin 8) (v : S16) (s : State) : (bufWrite i v s).events = s.events := rfl
@[simp] theorem bufWrite_host_in (i : Fin 8) (v : S16) (s : State) : (bufWrite i v s).host_in = s.host_in := rfl
@[simp] theorem bufWrite_rng_in (i : Fin 8) (v : S16) (s : State) : (bufWrite i v s).rng_in = s.rng_in := rfl
@[simp] theorem bufWrite_rng_count (i : Fin 8) (v : S16) (s : State) : (bufWrite i v s).rng_count = s.rng_count := rfl
@[simp] theorem bufWrite_free_count (i : Fin 8) (v : S16) (s : State) : (bufWrite i v s).free_count = s.free_count := rfl

/-! ### mixAdd -/

@[simp] theorem mixAdd_cfg (i : Fin 8) (v : S16) (s : State) : (mixAdd i v s).cfg = s.cfg := rfl
@[simp] theorem mixAdd_base (i : Fin 8) (v : S16) (s : State) : (mixAdd i v s).base = s.base := rfl
@[simp] theorem mixAdd_pos (i : Fin 8) (v : S16) (s : State) : (mixAdd i v s).pos = s.pos := rfl
@[simp] theorem mixAdd_end_pos (i : Fin 8) (v : S16) (s : State) : (mixAdd i v s).end_pos = s.end_pos := rfl
@[simp] theorem mixAdd_byte_buf (i : Fin 8) (v : S16) (s : State) : (mixAdd i v s).byte_buf = s.byte_buf := rfl
@[simp] theorem mixAdd_sym_cnt (i : Fin 8) (v : S16) (s : State) : (mixAdd i v s).sym_cnt = s.sym_cnt := rfl
@[simp] theorem mixAdd_recon_1 (i : Fin 8) (v : S16) (s : State) : (mixAdd i v s).recon_1 = s.recon_1 := rfl
@[simp] theorem mixAdd_recon_2 (i : Fin 8) (v : S16) (s : State) : (mixAdd i v s).recon_2 = s.recon_2 := rfl
@[simp] theorem mixAdd_modifier (i : Fin 8) (v : S16) (s : State) : (mixAdd i v s).modifier = s.modifier := rfl
@[simp] theorem mixAdd_a2 (i : Fin 8) (v : S16) (s : State) : (mixAdd i v s).a2 = s.a2 := rfl
@[simp] theorem mixAdd_a3 (i : Fin 8) (v : S16) (s : State) : (mixAdd i v s).a3 = s.a3 := rfl
@[simp] theorem mixAdd_b1 (i : Fin 8) (v : S16) (s : State) : (mixAdd i v s).b1 = s.b1 := rfl
@[simp] theorem mixAdd_b2 (i : Fin 8) (v : S16) (s : State) : (mixAdd i v s).b2 = s.b2 := rfl
@[simp] theorem mixAdd_b3 (i : Fin 8) (v : S16) (s : State) : (mixAdd i v s).b3 = s.b3 := rfl
@[simp] theorem mixAdd_xn_1 (i : Fin 8) (v : S16) (s : State) : (mixAdd i v s).xn_1 = s.xn_1 := rfl
@[simp] theorem mixAdd_xn_2 (i : Fin 8) (v : S16) (s : State) : (mixAdd i v s).xn_2 = s.xn_2 := rfl
@[simp] theorem mixAdd_yn_1 (i : Fin 8) (v : S16) (s : State) : (mixAdd i v s).yn_1 = s.yn_1 := rfl
@[simp] theorem mixAdd_yn_2 (i : Fin 8) (v : S16) (s : State) : (mixAdd i v s).yn_2 = s.yn_2 := rfl
@[simp] theorem mixAdd_treble_amp (i : Fin 8) (v : S16) (s : State) : (mixAdd i v s).treble_amp = s.treble_amp := rfl
@[simp] theorem mixAdd_treble_step (i : Fin 8) (v : S16) (s : State) : (mixAdd i v s).treble_step = s.treble_step := rfl
@[simp] theorem mixAdd_bass_0 (i : Fin 8) (v : S16) (s : State) : (mixAdd i v s).bass_0 = s.bass_0 := rfl
@[simp] theorem mixAdd_bass_1 (i : Fin 8) (v : S16) (s : State) : (mixAdd i v s).bass_1 = s.bass_1 := rfl
@[simp] theorem mixAdd_buf (i : Fin 8) (v : S16) (s : State) : (mixAdd i v s).buf = s.buf.set i (wrapS 16 ((bufRead i s).toInt + v.toInt)) := rfl
@[simp] theorem mixAdd_sample_mem (i : Fin 8) (v : S16) (s : State) : (mixAdd i v s).sample_mem = s.sample_mem := rfl
@[simp] theorem mixAdd_events (i : Fin 8) (v : S16) (s : State) : (mixAdd i v s).events = s.events ++ [.bufPair i (bufRead i s) (wrapS 16 ((bufRead i s).toInt + v.toInt))] := rfl
@[simp] theorem mixAdd_host_in (i : Fin 8) (v : S16) (s : State) : (mixAdd i v s).host_in = s.host_in := rfl
@[simp] theorem mixAdd_rng_in (i : Fin 8) (v : S16) (s : State) : (mixAdd i v s).rng_in = s.rng_in := rfl
@[simp] theorem mixAdd_rng_count (i : Fin 8) (v : S16) (s : State) : (mixAdd i v s).rng_count = s.rng_count := rfl
@[simp] theorem mixAdd_free_count (i : Fin 8) (v : S16) (s : State) : (mixAdd i v s).free_count = s.free_count := rfl

/-! ### extract -/

@[simp] theorem extract_cfg (s : State) : (extract s).cfg = s.cfg := rfl
@[simp] theorem extract_base (s : State) : (extract s).base = s.base := rfl
@[simp] theorem extract_pos (s : State) : (extract s).pos = s.pos := rfl
@[simp] theorem extract_end_pos (s : State) : (extract s).end_pos = s.end_pos := rfl
@[simp] theorem extract_byte_buf (s : State) : (extract s).byte_buf = lsr s.byte_buf 2 := rfl
@[simp] theorem extract_sym_cnt (s : State) : (extract s).sym_cnt = s.sym_cnt - 1 := rfl
@[simp] theorem extract_recon_1 (s : State) : (extract s).recon_1 = s.recon_1 := rfl
@[simp] theorem extract_recon_2 (s : State) : (extract s).recon_2 = s.recon_2 := rfl
@[simp] theorem extract_modifier (s : State) : (extract s).modifier = s.modifier := rfl
@[simp] theorem extract_a2 (s : State) : (extract s).a2 = s.a2 := rfl
@[simp] theorem extract_a3 (s : State) : (extract s).a3 = s.a3 := rfl
@[simp] theorem extract_b1 (s : State) : (extract s).b1 = s.b1 := rfl
@[simp] theorem extract_b2 (s : State) : (extract s).b2 = s.b2 := rfl
@[simp] theorem extract_b3 (s : State) : (extract s).b3 = s.b3 := rfl
@[simp] theorem extract_xn_1 (s : State) : (extract s).xn_1 = s.xn_1 := rfl
@[simp] theorem extract_xn_2 (s : State) : (extract s).xn_2 = s.xn_2 := rfl
@[simp] theorem extract_yn_1 (s : State) : (extract s).yn_1 = s.yn_1 := rfl
@[simp] theorem extract_yn_2 (s : State) : (extract s).yn_2 = s.yn_2 := rfl
@[simp] theorem extract_treble_amp (s : State) : (extract s).treble_amp = s.treble_amp := rfl
@[simp] theorem extract_treble_step (s : State) : (extract s).treble_step = s.treble_step := rfl
@[simp] theorem extract_bass_0 (s : State) : (extract s).bass_0 = s.bass_0 := rfl
@[simp] theorem extract_bass_1 (s : State) : (extract s).bass_1 = s.bass_1 := rfl
@[simp] theorem extract_buf (s : State) : (extract s).buf = s.buf := rfl
@[simp] theorem extract_sample_mem (s : State) : (extract s).sample_mem = s.sample_mem := rfl
@[simp] theorem extract_events (s : State) : (extract s).events = s.events := rfl
@[simp] theorem extract_host_in (s : State) : (extract s).host_in = s.host_in := rfl
@[simp] theorem extract_rng_in (s : State) : (extract s).rng_in = s.rng_in := rfl
@[simp] theorem extract_rng_count (s : State) : (extract s).rng_count = s.rng_count := rfl
@[simp] theorem extract_free_count (s : State) : (extract s).free_count = s.free_count := rfl

/-! ### reconstruct -/

@[simp] theorem reconstruct_cfg (s : State) : (reconstruct s).cfg = s.cfg := rfl
@[simp] theorem reconstruct_base (s : State) : (reconstruct s).base = s.base := rfl
@[simp] theorem reconstruct_pos (s : State) : (reconstruct s).pos = s.pos := rfl
@[simp] theorem reconstruct_end_pos (s : State) : (reconstruct s).end_pos = s.end_pos := rfl
@[simp] theorem reconstruct_byte_buf (s : State) : (reconstruct s).byte_buf = s.byte_buf := rfl
@[simp] theorem reconstruct_sym_cnt (s : State) : (reconstruct s).sym_cnt = s.sym_cnt := rfl
@[simp] theorem reconstruct_recon_1 (s : State) : (reconstruct s).recon_1 = wrapS 8 ((wrapS 8 (2 * s.recon_1.toInt - s.recon_2.toInt)).toInt + s.modifier.toInt) := rfl
@[simp] theorem reconstruct_recon_2 (s : State) : (reconstruct s).recon_2 = s.recon_1 := rfl
@[simp] theorem reconstruct_modifier (s : State) : (reconstruct s).modifier = s.modifier := rfl
@[simp] theorem reconstruct_a2 (s : State) : (reconstruct s).a2 = s.a2 := rfl
@[simp] theorem reconstruct_a3 (s : State) : (reconstruct s).a3 = s.a3 := rfl
@[simp] theorem reconstruct_b1 (s : State) : (reconstruct s).b1 = s.b1 := rfl
@[simp] theorem reconstruct_b2 (s : State) : (reconstruct s).b2 = s.b2 := rfl
@[simp] theorem reconstruct_b3 (s : State) : (reconstruct s).b3 = s.b3 := rfl
@[simp] theorem reconstruct_xn_1 (s : State) : (reconstruct s).xn_1 = s.xn_1 := rfl
@[simp] theorem reconstruct_xn_2 (s : State) : (reconstruct s).xn_2 = s.xn_2 := rfl
@[simp] theorem reconstruct_yn_1 (s : State) : (reconstruct s).yn_1 = s.yn_1 := rfl
@[simp] theorem reconstruct_yn_2 (s : State) : (reconstruct s).yn_2 = s.yn_2 := rfl
@[simp] theorem reconstruct_treble_amp (s : State) : (reconstruct s).treble_amp = s.treble_amp := rfl
@[simp] theorem reconstruct_treble_step (s : State) : (reconstruct s).treble_step = s.treble_step := rfl
@[simp] theorem reconstruct_bass_0 (s : State) : (reconstruct s).bass_0 = s.bass_0 := rfl
@[simp] theorem reconstruct_bass_1 (s : State) : (reconstruct s).bass_1 = s.bass_1 := rfl
@[simp] theorem reconstruct_buf (s : State) : (reconstruct s).buf = s.buf := rfl
@[simp] theorem reconstruct_sample_mem (s : State) : (reconstruct s).sample_mem = s.sample_mem := rfl
@[simp] theorem reconstruct_events (s : State) : (reconstruct s).events = s.events := rfl
@[simp] theorem reconstruct_host_in (s : State) : (reconstruct s).host_in = s.host_in := rfl
@[simp] theorem reconstruct_rng_in (s : State) : (reconstruct s).rng_in = s.rng_in := rfl
@[simp] theorem reconstruct_rng_count (s : State) : (reconstruct s).rng_count = s.rng_count := rfl
@[simp] theorem reconstruct_free_count (s : State) : (reconstruct s).free_count = s.free_count := rfl

/-! ### filterGet -/

@[simp] theorem filterGet_cfg (x : S16) (s : State) : (filterGet x s).2.cfg = s.cfg := rfl
@[simp] theorem filterGet_base (x : S16) (s : State) : (filterGet x s).2.base = s.base := rfl
@[simp] theorem filterGet_pos (x : S16) (s : State) : (filterGet x s).2.pos = s.pos := rfl
@[simp] theorem filterGet_end_pos (x : S16) (s : State) : (filterGet x s).2.end_pos = s.end_pos := rfl
@[simp] theorem filterGet_byte_buf (x : S16) (s : State) : (filterGet x s).2.byte_buf = s.byte_buf := rfl
@[simp] theorem filterGet_sym_cnt (x : S16) (s : State) : (filterGet x s).2.sym_cnt = s.sym_cnt := rfl
@[simp] theorem filterGet_recon_1 (x : S16) (s : State) : (filterGet x s).2.recon_1 = s.recon_1 := rfl
@[simp] theorem filterGet_recon_2 (x : S16) (s : State) : (filterGet x s).2.recon_2 = s.recon_2 := rfl
@[simp] theorem filterGet_modifier (x : S16) (s : State) : (filterGet x s).2.modifier = s.modifier := rfl
@[simp] theorem filterGet_a2 (x : S16) (s : State) : (filterGet x s).2.a2 = s.a2 := rfl
@[simp] theorem filterGet_a3 (x : S16) (s : State) : (filterGet x s).2.a3 = s.a3 := rfl
@[simp] theorem filterGet_b1 (x : S16) (s : State) : (filterGet x s).2.b1 = s.b1 := rfl
@[simp] theorem filterGet_b2 (x : S16) (s : State) : (filterGet x s).2.b2 = s.b2 := rfl
@[simp] theorem filterGet_b3 (x : S16) (s : State) : (filterGet x s).2.b3 = s.b3 := rfl
@[simp] theorem filterGet_xn_1 (x : S16) (s : State) : (filterGet x s).2.xn_1 = x := rfl
@[simp] theorem filterGet_xn_2 (x : S16) (s : State) : (filterGet x s).2.xn_2 = s.xn_1 := rfl
@[simp] theorem filterGet_yn_1 (x : S16) (s : State) : (filterGet x s).2.yn_1 = filterOutput x s := rfl
@[simp] theorem filterGet_yn_2 (x : S16) (s : State) : (filterGet x s).2.yn_2 = s.yn_1 := rfl
@[simp] theorem filterGet_treble_amp (x : S16) (s : State) : (filterGet x s).2.treble_amp = s.treble_amp := rfl
@[simp] theorem filterGet_treble_step (x : S16) (s : State) : (filterGet x s).2.treble_step = s.treble_step := rfl
@[simp] theorem filterGet_bass_0 (x : S16) (s : State) : (filterGet x s).2.bass_0 = s.bass_0 := rfl
@[simp] theorem filterGet_bass_1 (x : S16) (s : State) : (filterGet x s).2.bass_1 = s.bass_1 := rfl
@[simp] theorem filterGet_buf (x : S16) (s : State) : (filterGet x s).2.buf = s.buf := rfl
@[simp] theorem filterGet_sample_mem (x : S16) (s : State) : (filterGet x s).2.sample_mem = s.sample_mem := rfl
@[simp] theorem filterGet_events (x : S16) (s : State) : (filterGet x s).2.events = s.events := rfl
@[simp] theorem filterGet_host_in (x : S16) (s : State) : (filterGet x s).2.host_in = s.host_in := rfl
@[simp] theorem filterGet_rng_in (x : S16) (s : State) : (filterGet x s).2.rng_in = s.rng_in := rfl
@[simp] theorem filterGet_rng_count (x : S16) (s : State) : (filterGet x s).2.rng_count = s.rng_count := rfl
@[simp] theorem filterGet_free_count (x : S16) (s : State) : (filterGet x s).2.free_count = s.free_count := rfl

/-! ### filterInit -/

@[simp] theorem filterInit_cfg (c2 c3 d1 d2 d3 : S8) (s : State) : (filterInit c2 c3 d1 d2 d3 s).cfg = s.cfg := rfl
@[simp] theorem filterInit_base (c2 c3 d1 d2 d3 : S8) (s : State) : (filterInit c2 c3 d1 d2 d3 s).base = s.base := rfl
@[simp] theorem filterInit_pos (c2 c3 d1 d2 d3 : S8) (s : State) : (filterInit c2 c3 d1 d2 d3 s).pos = s.pos := rfl
@[simp] theorem filterInit_end_pos (c2 c3 d1 d2 d3 : S8) (s : State) : (filterInit c2 c3 d1 d2 d3 s).end_pos = s.end_pos := rfl
@[simp] theorem filterInit_byte_buf (c2 c3 d1 d2 d3 : S8) (s : State) : (filterInit c2 c3 d1 d2 d3 s).byte_buf = s.byte_buf := rfl
@[simp] theorem filterInit_sym_cnt (c2 c3 d1 d2 d3 : S8) (s : State) : (filterInit c2 c3 d1 d2 d3 s).sym_cnt = s.sym_cnt := rfl
@[simp] theorem filterInit_recon_1 (c2 c3 d1 d2 d3 : S8) (s : State) : (filterInit c2 c3 d1 d2 d3 s).recon_1 = s.recon_1 := rfl
@[simp] theorem filterInit_recon_2 (c2 c3 d1 d2 d3 : S8) (s : State) : (filterInit c2 c3 d1 d2 d3 s).recon_2 = s.recon_2 := rfl
@[simp] theorem filterInit_modifier (c2 c3 d1 d2 d3 : S8) (s : State) : (filterInit c2 c3 d1 d2 d3 s).modifier = s.modifier := rfl
@[simp] theorem filterInit_a2 (c2 c3 d1 d2 d3 : S8) (s : State) : (filterInit c2 c3 d1 d2 d3 s).a2 = c2 := rfl
@[simp] theorem filterInit_a3 (c2 c3 d1 d2 d3 : S8) (s : State) : (filterInit c2 c3 d1 d2 d3 s).a3 = c3 := rfl
@[simp] theorem filterInit_b1 (c2 c3 d1 d2 d3 : S8) (s : State) : (filterInit c2 c3 d1 d2 d3 s).b1 = d1 := rfl
@[simp] theorem filterInit_b2 (c2 c3 d1 d2 d3 : S8) (s : State) : (filterInit c2 c3 d1 d2 d3 s).b2 = d2 := rfl
@[simp] theorem filterInit_b3 (c2 c3 d1 d2 d3 : S8) (s : State) : (filterInit c2 c3 d1 d2 d3 s).b3 = d3 := rfl
@[simp] theorem filterInit_xn_1 (c2 c3 d1 d2 d3 : S8) (s : State) : (filterInit c2 c3 d1 d2 d3 s).xn_1 = 0 := rfl
@[simp] theorem filterInit_xn_2 (c2 c3 d1 d2 d3 : S8) (s : State) : (filterInit c2 c3 d1 d2 d3 s).xn_2 = 0 := rfl
@[simp] theorem filterInit_yn_1 (c2 c3 d1 d2 d3 : S8) (s : State) : (filterInit c2 c3 d1 d2 d3 s).yn_1 = 0 := rfl
@[simp] theorem filterInit_yn_2 (c2 c3 d1 d2 d3 : S8) (s : State) : (filterInit c2 c3 d1 d2 d3 s).yn_2 = 0 := rfl
@[simp] theorem filterInit_treble_amp (c2 c3 d1 d2 d3 : S8) (s : State) : (filterInit c2 c3 d1 d2 d3 s).treble_amp = s.treble_amp := rfl
@[simp] theorem filterInit_treble_step (c2 c3 d1 d2 d3 : S8) (s : State) : (filterInit c2 c3 d1 d2 d3 s).treble_step = s.treble_step := rfl
@[simp] theorem filterInit_bass_0 (c2 c3 d1 d2 d3 : S8) (s : State) : (filterInit c2 c3 d1 d2 d3 s).bass_0 = s.bass_0 := rfl
@[simp] theorem filterInit_bass_1 (c2 c3 d1 d2 d3 : S8) (s : State) : (filterInit c2 c3 d1 d2 d3 s).bass_1 = s.bass_1 := rfl
@[simp] theorem filterInit_buf (c2 c3 d1 d2 d3 : S8) (s : State) : (filterInit c2 c3 d1 d2 d3 s).buf = s.buf := rfl
@[simp] theorem filterInit_sample_mem (c2 c3 d1 d2 d3 : S8) (s : State) : (filterInit c2 c3 d1 d2 d3 s).sample_mem = s.sample_mem := rfl
@[simp] theorem filterInit_events (c2 c3 d1 d2 d3 : S8) (s : State) : (filterInit c2 c3 d1 d2 d3 s).events = s.events := rfl
@[simp] theorem filterInit_host_in (c2 c3 d1 d2 d3 : S8) (s : State) : (filterInit c2 c3 d1 d2 d3 s).host_in = s.host_in := rfl
@[simp] theorem filterInit_rng_in (c2 c3 d1 d2 d3 : S8) (s : State) : (filterInit c2 c3 d1 d2 d3 s).rng_in = s.rng_in := rfl
@[simp] theorem filterInit_rng_count (c2 c3 d1 d2 d3 : S8) (s : State) : (filterInit c2 c3 d1 d2 d3 s).rng_count = s.rng_count := rfl
@[simp] theorem filterInit_free_count (c2 c3 d1 d2 d3 : S8) (s : State) : (filterInit c2 c3 d1 d2 d3 s).free_count = s.free_count := rfl

/-! ### trebleLoad -/

@[simp] theorem trebleLoad_cfg (i d : U16) (s : State) : (trebleLoad i d s).cfg = s.cfg := rfl
@[simp] theorem trebleLoad_base (i d : U16) (s : State) : (trebleLoad i d s).base = s.base := rfl
@[simp] theorem trebleLoad_pos (i d : U16) (s : State) : (trebleLoad i d s).pos = s.pos := rfl
@[simp] theorem trebleLoad_end_pos (i d : U16) (s : State) : (trebleLoad i d s).end_pos = s.end_pos := rfl
@[simp] theorem trebleLoad_byte_buf (i d : U16) (s : State) : (trebleLoad i d s).byte_buf = s.byte_buf := rfl
@[simp] theorem trebleLoad_sym_cnt (i d : U16) (s : State) : (trebleLoad i d s).sym_cnt = s.sym_cnt := rfl
@[simp] theorem trebleLoad_recon_1 (i d : U16) (s : State) : (trebleLoad i d s).recon_1 = s.recon_1 := rfl
@[simp] theorem trebleLoad_recon_2 (i d : U16) (s : State) : (trebleLoad i d s).recon_2 = s.recon_2 := rfl
@[simp] theorem trebleLoad_modifier (i d : U16) (s : State) : (trebleLoad i d s).modifier = s.modifier := rfl
@[simp] theorem trebleLoad_a2 (i d : U16) (s : State) : (trebleLoad i d s).a2 = s.a2 := rfl
@[simp] theorem trebleLoad_a3 (i d : U16) (s : State) : (trebleLoad i d s).a3 = s.a3 := rfl
@[simp] theorem trebleLoad_b1 (i d : U16) (s : State) : (trebleLoad i d s).b1 = s.b1 := rfl
@[simp] theorem trebleLoad_b2 (i d : U16) (s : State) : (trebleLoad i d s).b2 = s.b2 := rfl
@[simp] theorem trebleLoad_b3 (i d : U16) (s : State) : (trebleLoad i d s).b3 = s.b3 := rfl
@[simp] theorem trebleLoad_xn_1 (i d : U16) (s : State) : (trebleLoad i d s).xn_1 = s.xn_1 := rfl
@[simp] theorem trebleLoad_xn_2 (i d : U16) (s : State) : (trebleLoad i d s).xn_2 = s.xn_2 := rfl
@[simp] theorem trebleLoad_yn_1 (i d : U16) (s : State) : (trebleLoad i d s).yn_1 = s.yn_1 := rfl
@[simp] theorem trebleLoad_yn_2 (i d : U16) (s : State) : (trebleLoad i d s).yn_2 = s.yn_2 := rfl
@[simp] theorem trebleLoad_treble_amp (i d : U16) (s : State) : (trebleLoad i d s).treble_amp = i.setWidth 32 := rfl
@[simp] theorem trebleLoad_treble_step (i d : U16) (s : State) : (trebleLoad i d s).treble_step = d := rfl
@[simp] theorem trebleLoad_bass_0 (i d : U16) (s : State) : (trebleLoad i d s).bass_0 = s.bass_0 := rfl
@[simp] theorem trebleLoad_bass_1 (i d : U16) (s : State) : (trebleLoad i d s).bass_1 = s.bass_1 := rfl
@[simp] theorem trebleLoad_buf (i d : U16) (s : State) : (trebleLoad i d s).buf = s.buf := rfl
@[simp] theorem trebleLoad_sample_mem (i d : U16) (s : State) : (trebleLoad i d s).sample_mem = s.sample_mem := rfl
@[simp] theorem trebleLoad_events (i d : U16) (s : State) : (trebleLoad i d s).events = s.events := rfl
@[simp] theorem trebleLoad_host_in (i d : U16) (s : State) : (trebleLoad i d s).host_in = s.host_in := rfl
@[simp] theorem trebleLoad_rng_in (i d : U16) (s : State) : (trebleLoad i d s).rng_in = s.rng_in := rfl
@[simp] theorem trebleLoad_rng_count (i d : U16) (s : State) : (trebleLoad i d s).rng_count = s.rng_count := rfl
@[simp] theorem trebleLoad_free_count (i d : U16) (s : State) : (trebleLoad i d s).free_count = s.free_count := rfl

/-! ### trebleDecay -/

@[simp] theorem trebleDecay_cfg (s : State) : (trebleDecay s).cfg = s.cfg := rfl
@[simp] theorem trebleDecay_base (s : State) : (trebleDecay s).base = s.base := rfl
@[simp] theorem trebleDecay_pos (s : State) : (trebleDecay s).pos = s.pos := rfl
@[simp] theorem trebleDecay_end_pos (s : State) : (trebleDecay s).end_pos = s.end_pos := rfl
@[simp] theorem trebleDecay_byte_buf (s : State) : (trebleDecay s).byte_buf = s.byte_buf := rfl
@[simp] theorem trebleDecay_sym_cnt (s : State) : (trebleDecay s).sym_cnt = s.sym_cnt := rfl
@[simp] theorem trebleDecay_recon_1 (s : State) : (trebleDecay s).recon_1 = s.recon_1 := rfl
@[simp] theorem trebleDecay_recon_2 (s : State) : (trebleDecay s).recon_2 = s.recon_2 := rfl
@[simp] theorem trebleDecay_modifier (s : State) : (trebleDecay s).modifier = s.modifier := rfl
@[simp] theorem trebleDecay_a2 (s : State) : (trebleDecay s).a2 = s.a2 := rfl
@[simp] theorem trebleDecay_a3 (s : State) : (trebleDecay s).a3 = s.a3 := rfl
@[simp] theorem trebleDecay_b1 (s : State) : (trebleDecay s).b1 = s.b1 := rfl
@[simp] theorem trebleDecay_b2 (s : State) : (trebleDecay s).b2 = s.b2 := rfl
@[simp] theorem trebleDecay_b3 (s : State) : (trebleDecay s).b3 = s.b3 := rfl
@[simp] theorem trebleDecay_xn_1 (s : State) : (trebleDecay s).xn_1 = s.xn_1 := rfl
@[simp] theorem trebleDecay_xn_2 (s : State) : (trebleDecay s).xn_2 = s.xn_2 := rfl
@[simp] theorem trebleDecay_yn_1 (s : State) : (trebleDecay s).yn_1 = s.yn_1 := rfl
@[simp] theorem trebleDecay_yn_2 (s : State) : (trebleDecay s).yn_2 = s.yn_2 := rfl
@[simp] theorem trebleDecay_treble_amp (s : State) : (trebleDecay s).treble_amp = wrapS 32 (s.treble_amp.toInt - s.treble_step.toNat) := rfl
@[simp] theorem trebleDecay_treble_step (s : State) : (trebleDecay s).treble_step = s.treble_step := rfl
@[simp] theorem trebleDecay_bass_0 (s : State) : (trebleDecay s).bass_0 = s.bass_0 := rfl
@[simp] theorem trebleDecay_bass_1 (s : State) : (trebleDecay s).bass_1 = s.bass_1 := rfl
@[simp] theorem trebleDecay_buf (s : State) : (trebleDecay s).buf = s.buf := rfl
@[simp] theorem trebleDecay_sample_mem (s : State) : (trebleDecay s).sample_mem = s.sample_mem := rfl
@[simp] theorem trebleDecay_events (s : State) : (trebleDecay s).events = s.events := rfl
@[simp] theorem trebleDecay_host_in (s : State) : (trebleDecay s).host_in = s.host_in := rfl
@[simp] theorem trebleDecay_rng_in (s : State) : (trebleDecay s).rng_in = s.rng_in := rfl
@[simp] theorem trebleDecay_rng_count (s : State) : (trebleDecay s).rng_count = s.rng_count := rfl
@[simp] theorem trebleDecay_free_count (s : State) : (trebleDecay s).free_count = s.free_count := rfl

/-! ### coreReset -/

@[simp] theorem coreReset_cfg (s : State) : (coreReset s).cfg = s.cfg := rfl
@[simp] theorem coreReset_base (s : State) : (coreReset s).base = 0 := rfl
@[simp] theorem coreReset_pos (s : State) : (coreReset s).pos = 0 := rfl
@[simp] theorem coreReset_end_pos (s : State) : (coreReset s).end_pos = 0 := rfl
@[simp] theorem coreReset_byte_buf (s : State) : (coreReset s).byte_buf = 0 := rfl
@[simp] theorem coreReset_sym_cnt (s : State) : (coreReset s).sym_cnt = 0 := rfl
@[simp] theorem coreReset_recon_1 (s : State) : (coreReset s).recon_1 = 0 := rfl
@[simp] theorem coreReset_recon_2 (s : State) : (coreReset s).recon_2 = 0 := rfl
@[simp] theorem coreReset_modifier (s : State) : (coreReset s).modifier = 0 := rfl
@[simp] theorem coreReset_a2 (s : State) : (coreReset s).a2 = 0 := rfl
@[simp] theorem coreReset_a3 (s : State) : (coreReset s).a3 = 0 := rfl
@[simp] theorem coreReset_b1 (s : State) : (coreReset s).b1 = 0 := rfl
@[simp] theorem coreReset_b2 (s : State) : (coreReset s).b2 = 0 := rfl
@[simp] theorem coreReset_b3 (s : State) : (coreReset s).b3 = 0 := rfl
@[simp] theorem coreReset_xn_1 (s : State) : (coreReset s).xn_1 = 0 := rfl
@[simp] theorem coreReset_xn_2 (s : State) : (coreReset s).xn_2 = 0 := rfl
@[simp] theorem coreReset_yn_1 (s : State) : (coreReset s).yn_1 = 0 := rfl
@[simp] theorem coreReset_yn_2 (s : State) : (coreReset s).yn_2 = 0 := rfl
@[simp] theorem coreReset_treble_amp (s : State) : (coreReset s).treble_amp = 0 := rfl
@[simp] theorem coreReset_treble_step (s : State) : (coreReset s).treble_step = 0 := rfl
@[simp] theorem coreReset_bass_0 (s : State) : (coreReset s).bass_0 = 0 := rfl
@[simp] theorem coreReset_bass_1 (s : State) : (coreReset s).bass_1 = 0 := rfl
@[simp] theorem coreReset_buf (s : State) : (coreReset s).buf = s.buf := rfl
@[simp] theorem coreReset_sample_mem (s : State) : (coreReset s).sample_mem = s.sample_mem := rfl
@[simp] theorem coreReset_events (s : State) : (coreReset s).events = s.events := rfl
@[simp] theorem coreReset_host_in (s : State) : (coreReset s).host_in = s.host_in := rfl
@[simp] theorem coreReset_rng_in (s : State) : (coreReset s).rng_in = s.rng_in := rfl
@[simp] theorem coreReset_rng_count (s : State) : (coreReset s).rng_count = s.rng_count := rfl
@[simp] theorem coreReset_free_count (s : State) : (coreReset s).free_count = s.free_count := rfl

/-! ### writeSampleByte -/

@[simp] theorem writeSampleByte_cfg (a : Nat) (b : U8) (s : State) : (writeSampleByte a b s).cfg = s.cfg := rfl
@[simp] theorem writeSampleByte_base (a : Nat) (b : U8) (s : State) : (writeSampleByte a b s).base = s.base := rfl
@[simp] theorem writeSampleByte_pos (a : Nat) (b : U8) (s : State) : (writeSampleByte a b s).pos = s.pos := rfl
@[simp] theorem writeSampleByte_end_pos (a : Nat) (b : U8) (s : State) : (writeSampleByte a b s).end_pos = s.end_pos := rfl
@[simp] theorem writeSampleByte_byte_buf (a : Nat) (b : U8) (s : State) : (writeSampleByte a b s).byte_buf = s.byte_buf := rfl
@[simp] theorem writeSampleByte_sym_cnt (a : Nat) (b : U8) (s : State) : (writeSampleByte a b s).sym_cnt = s.sym_cnt := rfl
@[simp] theorem writeSampleByte_recon_1 (a : Nat) (b : U8) (s : State) : (writeSampleByte a b s).recon_1 = s.recon_1 := rfl
@[simp] theorem writeSampleByte_recon_2 (a : Nat) (b : U8) (s : State) : (writeSampleByte a b s).recon_2 = s.recon_2 := rfl
@[simp] theorem writeSampleByte_modifier (a : Nat) (b : U8) (s : State) : (writeSampleByte a b s).modifier = s.modifier := rfl
@[simp] theorem writeSampleByte_a2 (a : Nat) (b : U8) (s : State) : (writeSampleByte a b s).a2 = s.a2 := rfl
@[simp] theorem writeSampleByte_a3 (a : Nat) (b : U8) (s : State) : (writeSampleByte a b s).a3 = s.a3 := rfl
@[simp] theorem writeSampleByte_b1 (a : Nat) (b : U8) (s : State) : (writeSampleByte a b s).b1 = s.b1 := rfl
@[simp] theorem writeSampleByte_b2 (a : Nat) (b : U8) (s : State) : (writeSampleByte a b s).b2 = s.b2 := rfl
@[simp] theorem writeSampleByte_b3 (a : Nat) (b : U8) (s : State) : (writeSampleByte a b s).b3 = s.b3 := rfl
@[simp] theorem writeSampleByte_xn_1 (a : Nat) (b : U8) (s : State) : (writeSampleByte a b s).xn_1 = s.xn_1 := rfl
@[simp] theorem writeSampleByte_xn_2 (a : Nat) (b : U8) (s : State) : (writeSampleByte a b s).xn_2 = s.xn_2 := rfl
@[simp] theorem writeSampleByte_yn_1 (a : Nat) (b : U8) (s : State) : (writeSampleByte a b s).yn_1 = s.yn_1 := rfl
@[simp] theorem writeSampleByte_yn_2 (a : Nat) (b : U8) (s : State) : (writeSampleByte a b s).yn_2 = s.yn_2 := rfl
@[simp] theorem writeSampleByte_treble_amp (a : Nat) (b : U8) (s : State) : (writeSampleByte a b s).treble_amp = s.treble_amp := rfl
@[simp] theorem writeSampleByte_treble_step (a : Nat) (b : U8) (s : State) : (writeSampleByte a b s).treble_step = s.treble_step := rfl
@[simp] theorem writeSampleByte_bass_0 (a : Nat) (b : U8) (s : State) : (writeSampleByte a b s).bass_0 = s.bass_0 := rfl
@[simp] theorem writeSampleByte_bass_1 (a : Nat) (b : U8) (s : State) : (writeSampleByte a b s).bass_1 = s.bass_1 := rfl
@[simp] theorem writeSampleByte_buf (a : Nat) (b : U8) (s : State) : (writeSampleByte a b s).buf = s.buf := rfl
@[simp] theorem writeSampleByte_sample_mem (a : Nat) (b : U8) (s : State) : (writeSampleByte a b s).sample_mem = s.sample_mem.write (wrapU s.cfg.addrW a) b := rfl
@[simp] theorem writeSampleByte_events (a : Nat) (b : U8) (s : State) : (writeSampleByte a b s).events = s.events := rfl
@[simp] theorem writeSampleByte_host_in (a : Nat) (b : U8) (s : State) : (writeSampleByte a b s).host_in = s.host_in := rfl
@[simp] theorem writeSampleByte_rng_in (a : Nat) (b : U8) (s : State) : (writeSampleByte a b s).rng_in = s.rng_in := rfl
@[simp] theorem writeSampleByte_rng_count (a : Nat) (b : U8) (s : State) : (writeSampleByte a b s).rng_count = s.rng_count := rfl
@[simp] theorem writeSampleByte_free_count (a : Nat) (b : U8) (s : State) : (writeSampleByte a b s).free_count = s.free_count := rfl

/-! ### withAction -/

@[simp] theorem withAction_cfg (s : State) (a : HostAction) : (s.withAction a).cfg = s.cfg := rfl
@[simp] theorem withAction_base (s : State) (a : HostAction) : (s.withAction a).base = s.base := rfl
@[simp] theorem withAction_pos (s : State) (a : HostAction) : (s.withAction a).pos = s.pos := rfl
@[simp] theorem withAction_end_pos (s : State) (a : HostAction) : (s.withAction a).end_pos = s.end_pos := rfl
@[simp] theorem withAction_byte_buf (s : State) (a : HostAction) : (s.withAction a).byte_buf = s.byte_buf := rfl
@[simp] theorem withAction_sym_cnt (s : State) (a : HostAction) : (s.withAction a).sym_cnt = s.sym_cnt := rfl
@[simp] theorem withAction_recon_1 (s : State) (a : HostAction) : (s.withAction a).recon_1 = s.recon_1 := rfl
@[simp] theorem withAction_recon_2 (s : State) (a : HostAction) : (s.withAction a).recon_2 = s.recon_2 := rfl
@[simp] theorem withAction_modifier (s : State) (a : HostAction) : (s.withAction a).modifier = s.modifier := rfl
@[simp] theorem withAction_a2 (s : State) (a : HostAction) : (s.withAction a).a2 = s.a2 := rfl
@[simp] theorem withAction_a3 (s : State) (a : HostAction) : (s.withAction a).a3 = s.a3 := rfl
@[simp] theorem withAction_b1 (s : State) (a : HostAction) : (s.withAction a).b1 = s.b1 := rfl
@[simp] theorem withAction_b2 (s : State) (a : HostAction) : (s.withAction a).b2 = s.b2 := rfl
@[simp] theorem withAction_b3 (s : State) (a : HostAction) : (s.withAction a).b3 = s.b3 := rfl
@[simp] theorem withAction_xn_1 (s : State) (a : HostAction) : (s.withAction a).xn_1 = s.xn_1 := rfl
@[simp] theorem withAction_xn_2 (s : State) (a : HostAction) : (s.withAction a).xn_2 = s.xn_2 := rfl
@[simp] theorem withAction_yn_1 (s : State) (a : HostAction) : (s.withAction a).yn_1 = s.yn_1 := rfl
@[simp] theorem withAction_yn_2 (s : State) (a : HostAction) : (s.withAction a).yn_2 = s.yn_2 := rfl
@[simp] theorem withAction_treble_amp (s : State) (a : HostAction) : (s.withAction a).treble_amp = s.treble_amp := rfl
@[simp] theorem withAction_treble_step (s : State) (a : HostAction) : (s.withAction a).treble_step = s.treble_step := rfl
@[simp] theorem withAction_bass_0 (s : State) (a : HostAction) : (s.withAction a).bass_0 = s.bass_0 := rfl
@[simp] theorem withAction_bass_1 (s : State) (a : HostAction) : (s.withAction a).bass_1 = s.bass_1 := rfl
@[simp] theorem withAction_buf (s : State) (a : HostAction) : (s.withAction a).buf = s.buf := rfl
@[simp] theorem withAction_sample_mem (s : State) (a : HostAction) : (s.withAction a).sample_mem = s.sample_mem := rfl
@[simp] theorem withAction_events (s : State) (a : HostAction) : (s.withAction a).events = s.events := rfl
@[simp] theorem withAction_host_in (s : State) (a : HostAction) : (s.withAction a).host_in = a :: s.host_in := rfl
@[simp] theorem withAction_rng_in (s : State) (a : HostAction) : (s.withAction a).rng_in = s.rng_in := rfl
@[simp] theorem withAction_rng_count (s : State) (a : HostAction) : (s.withAction a).rng_count = s.rng_count := rfl
@[simp] theorem withAction_free_count (s : State) (a : HostAction) : (s.withAction a).free_count = s.free_count := rfl

/-! ### abandonBlock -/

@[simp] theorem abandonBlock_cfg (s : State) : (abandonBlock s).cfg = s.cfg := rfl
@[simp] theorem abandonBlock_base (s : State) : (abandonBlock s).base = s.base := rfl
@[simp] theorem abandonBlock_pos (s : State) : (abandonBlock s).pos = s.pos := rfl
@[simp] theorem abandonBlock_end_pos (s : State) : (abandonBlock s).end_pos = s.end_pos := rfl
@[simp] theorem abandonBlock_byte_buf (s : State) : (abandonBlock s).byte_buf = s.byte_buf := rfl
@[simp] theorem abandonBlock_sym_cnt (s : State) : (abandonBlock s).sym_cnt = s.sym_cnt := rfl
@[simp] theorem abandonBlock_recon_1 (s : State) : (abandonBlock s).recon_1 = s.recon_1 := rfl
@[simp] theorem abandonBlock_recon_2 (s : State) : (abandonBlock s).recon_2 = s.recon_2 := rfl
@[simp] theorem abandonBlock_modifier (s : State) : (abandonBlock s).modifier = s.modifier := rfl
@[simp] theorem abandonBlock_a2 (s : State) : (abandonBlock s).a2 = s.a2 := rfl
@[simp] theorem abandonBlock_a3 (s : State) : (abandonBlock s).a3 = s.a3 := rfl
@[simp] theorem abandonBlock_b1 (s : State) : (abandonBlock s).b1 = s.b1 := rfl
@[simp] theorem abandonBlock_b2 (s : State) : (abandonBlock s).b2 = s.b2 := rfl
@[simp] theorem abandonBlock_b3 (s : State) : (abandonBlock s).b3 = s.b3 := rfl
@[simp] theorem abandonBlock_xn_1 (s : State) : (abandonBlock s).xn_1 = s.xn_1 := rfl
@[simp] theorem abandonBlock_xn_2 (s : State) : (abandonBlock s).xn_2 = s.xn_2 := rfl
@[simp] theorem abandonBlock_yn_1 (s : State) : (abandonBlock s).yn_1 = s.yn_1 := rfl
@[simp] theorem abandonBlock_yn_2 (s : State) : (abandonBlock s).yn_2 = s.yn_2 := rfl
@[simp] theorem abandonBlock_treble_amp (s : State) : (abandonBlock s).treble_amp = s.treble_amp := rfl
@[simp] theorem abandonBlock_treble_step (s : State) : (abandonBlock s).treble_step = s.treble_step := rfl
@[simp] theorem abandonBlock_bass_0 (s : State) : (abandonBlock s).bass_0 = s.bass_0 := rfl
@[simp] theorem abandonBlock_bass_1 (s : State) : (abandonBlock s).bass_1 = s.bass_1 := rfl
@[simp] theorem abandonBlock_sample_mem (s : State) : (abandonBlock s).sample_mem = s.sample_mem := rfl
@[simp] theorem abandonBlock_host_in (s : State) : (abandonBlock s).host_in = s.host_in := rfl
@[simp] theorem abandonBlock_events (s : State) : (abandonBlock s).events = s.events ++ abandonedTrace s := rfl
@[simp] theorem abandonBlock_rng_in (s : State) : (abandonBlock s).rng_in = s.rng_in.drop ((abandonedTrace s).countP isDraw) := rfl
@[simp] theorem abandonBlock_rng_count (s : State) : (abandonBlock s).rng_count = s.rng_count + (abandonedTrace s).countP isDraw := rfl
@[simp] theorem abandonBlock_free_count (s : State) : (abandonBlock s).free_count = s.free_count + 1 := rfl

/-- A slot an abandoned block has not added into is as it was. -/
theorem abandonBlock_buf_untouched (s : State) (i : Fin 8) (h : (abandonedTrace s).any (addsInto i) = false) :
    (abandonBlock s).buf[i] = s.buf[i] := by
  simp only [abandonBlock, Fin.getElem_fin, Vector.getElem_ofFn, h, Bool.false_eq_true, if_false]

end Sys2Proof.Machine
end

