-- ==== Sys2Proof/Laws/Decoder.lean ====
section
/-! SUPPORT. The decoder: what a fetch does and leaves alone, what a symbol does to `modifier`, and that `DeltaGet` on an
active decoder always answers one named next state. -/

namespace Sys2Proof.Machine

open Sys2Proof.Safety

/-! ### Fetch (R94) -/

@[simp] theorem fetch_cfg (s : State) : (fetch s).cfg = s.cfg := by
  unfold fetch fetchByte; split <;> (try split) <;> rfl

@[simp] theorem fetch_base (s : State) : (fetch s).base = s.base := by
  unfold fetch fetchByte; split <;> (try split) <;> rfl

@[simp] theorem fetch_end_pos (s : State) : (fetch s).end_pos = s.end_pos := by
  unfold fetch fetchByte; split <;> (try split) <;> rfl

@[simp] theorem fetch_recon_1 (s : State) : (fetch s).recon_1 = s.recon_1 := by
  unfold fetch fetchByte; split <;> (try split) <;> rfl

@[simp] theorem fetch_recon_2 (s : State) : (fetch s).recon_2 = s.recon_2 := by
  unfold fetch fetchByte; split <;> (try split) <;> rfl

@[simp] theorem fetch_modifier (s : State) : (fetch s).modifier = s.modifier := by
  unfold fetch fetchByte; split <;> (try split) <;> rfl

@[simp] theorem fetch_a2 (s : State) : (fetch s).a2 = s.a2 := by
  unfold fetch fetchByte; split <;> (try split) <;> rfl

@[simp] theorem fetch_a3 (s : State) : (fetch s).a3 = s.a3 := by
  unfold fetch fetchByte; split <;> (try split) <;> rfl

@[simp] theorem fetch_b1 (s : State) : (fetch s).b1 = s.b1 := by
  unfold fetch fetchByte; split <;> (try split) <;> rfl

@[simp] theorem fetch_b2 (s : State) : (fetch s).b2 = s.b2 := by
  unfold fetch fetchByte; split <;> (try split) <;> rfl

@[simp] theorem fetch_b3 (s : State) : (fetch s).b3 = s.b3 := by
  unfold fetch fetchByte; split <;> (try split) <;> rfl

@[simp] theorem fetch_xn_1 (s : State) : (fetch s).xn_1 = s.xn_1 := by
  unfold fetch fetchByte; split <;> (try split) <;> rfl

@[simp] theorem fetch_xn_2 (s : State) : (fetch s).xn_2 = s.xn_2 := by
  unfold fetch fetchByte; split <;> (try split) <;> rfl

@[simp] theorem fetch_yn_1 (s : State) : (fetch s).yn_1 = s.yn_1 := by
  unfold fetch fetchByte; split <;> (try split) <;> rfl

@[simp] theorem fetch_yn_2 (s : State) : (fetch s).yn_2 = s.yn_2 := by
  unfold fetch fetchByte; split <;> (try split) <;> rfl

@[simp] theorem fetch_treble_amp (s : State) : (fetch s).treble_amp = s.treble_amp := by
  unfold fetch fetchByte; split <;> (try split) <;> rfl

@[simp] theorem fetch_treble_step (s : State) : (fetch s).treble_step = s.treble_step := by
  unfold fetch fetchByte; split <;> (try split) <;> rfl

@[simp] theorem fetch_bass_0 (s : State) : (fetch s).bass_0 = s.bass_0 := by
  unfold fetch fetchByte; split <;> (try split) <;> rfl

@[simp] theorem fetch_bass_1 (s : State) : (fetch s).bass_1 = s.bass_1 := by
  unfold fetch fetchByte; split <;> (try split) <;> rfl

@[simp] theorem fetch_buf (s : State) : (fetch s).buf = s.buf := by
  unfold fetch fetchByte; split <;> (try split) <;> rfl

@[simp] theorem fetch_sample_mem (s : State) : (fetch s).sample_mem = s.sample_mem := by
  unfold fetch fetchByte; split <;> (try split) <;> rfl

@[simp] theorem fetch_host_in (s : State) : (fetch s).host_in = s.host_in := by
  unfold fetch fetchByte; split <;> (try split) <;> rfl

@[simp] theorem fetch_rng_in (s : State) : (fetch s).rng_in = s.rng_in := by
  unfold fetch fetchByte; split <;> (try split) <;> rfl

@[simp] theorem fetch_rng_count (s : State) : (fetch s).rng_count = s.rng_count := by
  unfold fetch fetchByte; split <;> (try split) <;> rfl

@[simp] theorem fetch_free_count (s : State) : (fetch s).free_count = s.free_count := by
  unfold fetch fetchByte; split <;> (try split) <;> rfl

/-- With a symbol left, the fetch stage does nothing. -/
theorem fetch_of_symbols {s : State} (h : s.sym_cnt ≠ 0) : fetch s = s := by
  unfold fetch; rw [if_neg h]

theorem bassActive_iff (s : State) : bassActive s = true ↔ s.pos.toNat < s.end_pos.toNat := by
  simp [bassActive]

theorem trebleActive_iff (s : State) : trebleActive s = true ↔ 0 < s.treble_amp.toInt := by
  simp [trebleActive]

theorem pos_ne_end {s : State} (h : bassActive s = true) : s.pos ≠ s.end_pos := by
  rw [bassActive_iff] at h; intro he; rw [he] at h; omega

/-- With no symbol left on an active decoder, the byte at the cursor comes in. -/
theorem fetch_of_empty {s : State} (ha : bassActive s = true) (h : s.sym_cnt = 0) :
    fetch s = { (sampleRead (sampleAddress s) s).2 with
      byte_buf := s.sample_mem.read (sampleAddress s), pos := s.pos + 1, sym_cnt := 4 } := by
  unfold fetch fetchByte; rw [if_pos h, if_neg (pos_ne_end ha)]; rfl

/-! ### The symbols (R96 to R99) -/

/-- The effect of a symbol on `modifier`. -/
def symbolModifier : DeltaSymbol → S8 → S8
  | .keep, m => m
  | .neg,  m => wrapS 8 (0 - m.toInt)
  | .dbl,  m => if m = 0 then 1 else wrapS 8 (m.toInt * 2)
  | .hlv,  m => if m = 0 then -1 else wrapS 8 (asr m.toInt 1)

/-- A symbol always completes: its effect on `modifier`, then the reconstruction. -/
theorem execSymbol_eq (sym : DeltaSymbol) (s : State) :
    execSymbol sym s = .next (reconstruct { s with modifier := symbolModifier sym s.modifier }) := by
  cases sym <;> rfl

/-- The meaning of a symbol is that of its instruction. -/
theorem exec_toInstr (sym : DeltaSymbol) (s : State) : exec sym.toInstr s = execSymbol sym s := by
  cases sym <;> rfl

/-! ### DeltaGet (R93) -/

/-- The state after `DeltaGet` on an active decoder. -/
def afterGet (s : State) : State :=
  reconstruct { extract (fetch s) with modifier := symbolModifier (currentSymbol (fetch s)) s.modifier }

theorem deltaGet_active {s : State} (h : bassActive s = true) : deltaGet s = .next (afterGet s) := by
  simp [deltaGet, h, execSymbol_eq, afterGet]

theorem deltaGet_inactive {s : State} (h : bassActive s = false) : deltaGet s = .refused .deltaGetInactive := by
  simp [deltaGet, h]

@[simp] theorem afterGet_cfg (s : State) : (afterGet s).cfg = s.cfg := by simp [afterGet]

@[simp] theorem afterGet_base (s : State) : (afterGet s).base = s.base := by simp [afterGet]

@[simp] theorem afterGet_end_pos (s : State) : (afterGet s).end_pos = s.end_pos := by simp [afterGet]

@[simp] theorem afterGet_a2 (s : State) : (afterGet s).a2 = s.a2 := by simp [afterGet]

@[simp] theorem afterGet_a3 (s : State) : (afterGet s).a3 = s.a3 := by simp [afterGet]

@[simp] theorem afterGet_b1 (s : State) : (afterGet s).b1 = s.b1 := by simp [afterGet]

@[simp] theorem afterGet_b2 (s : State) : (afterGet s).b2 = s.b2 := by simp [afterGet]

@[simp] theorem afterGet_b3 (s : State) : (afterGet s).b3 = s.b3 := by simp [afterGet]

@[simp] theorem afterGet_xn_1 (s : State) : (afterGet s).xn_1 = s.xn_1 := by simp [afterGet]

@[simp] theorem afterGet_xn_2 (s : State) : (afterGet s).xn_2 = s.xn_2 := by simp [afterGet]

@[simp] theorem afterGet_yn_1 (s : State) : (afterGet s).yn_1 = s.yn_1 := by simp [afterGet]

@[simp] theorem afterGet_yn_2 (s : State) : (afterGet s).yn_2 = s.yn_2 := by simp [afterGet]

@[simp] theorem afterGet_treble_amp (s : State) : (afterGet s).treble_amp = s.treble_amp := by simp [afterGet]

@[simp] theorem afterGet_treble_step (s : State) : (afterGet s).treble_step = s.treble_step := by simp [afterGet]

@[simp] theorem afterGet_bass_0 (s : State) : (afterGet s).bass_0 = s.bass_0 := by simp [afterGet]

@[simp] theorem afterGet_bass_1 (s : State) : (afterGet s).bass_1 = s.bass_1 := by simp [afterGet]

@[simp] theorem afterGet_buf (s : State) : (afterGet s).buf = s.buf := by simp [afterGet]

@[simp] theorem afterGet_sample_mem (s : State) : (afterGet s).sample_mem = s.sample_mem := by simp [afterGet]

@[simp] theorem afterGet_host_in (s : State) : (afterGet s).host_in = s.host_in := by simp [afterGet]

@[simp] theorem afterGet_rng_in (s : State) : (afterGet s).rng_in = s.rng_in := by simp [afterGet]

@[simp] theorem afterGet_rng_count (s : State) : (afterGet s).rng_count = s.rng_count := by simp [afterGet]

@[simp] theorem afterGet_free_count (s : State) : (afterGet s).free_count = s.free_count := by simp [afterGet]

@[simp] theorem afterGet_pos (s : State) : (afterGet s).pos = (fetch s).pos := by simp [afterGet]

@[simp] theorem afterGet_byte_buf (s : State) : (afterGet s).byte_buf = lsr (fetch s).byte_buf 2 := by simp [afterGet]

@[simp] theorem afterGet_sym_cnt (s : State) : (afterGet s).sym_cnt = (fetch s).sym_cnt - 1 := by simp [afterGet]

@[simp] theorem afterGet_events (s : State) : (afterGet s).events = (fetch s).events := by simp [afterGet]

/-- `DeltaGet` neither reads nor writes the bass samples. -/
theorem afterGet_with_bass_1 (s : State) (b : S8) : afterGet { s with bass_1 := b } = { afterGet s with bass_1 := b } := by
  unfold afterGet fetch fetchByte; split <;> (try split) <;> rfl

end Sys2Proof.Machine
end

