-- ==== Sys2Proof/Laws/Ports.lean ====
section
/-! SUPPORT. The pseudo-random port: a draw answers the next byte and moves every later one forward by one. -/

namespace Sys2Proof.Machine

open Sys2Proof.Safety

theorem nextDraw_eq (s : State) : nextDraw s = drawAt s 0 := by
  unfold nextDraw drawAt; cases s.rng_in <;> rfl

/-- The draws ahead depend on the port alone. -/
theorem drawAt_congr {s t : State} (h1 : t.rng_in = s.rng_in) (h2 : t.rng_count = s.rng_count) (k : Nat) :
    drawAt t k = drawAt s k := by
  simp [drawAt, h1, h2]

/-- After a draw, number `k` is what number `k + 1` was. -/
theorem drawAt_after {s t : State} (h1 : t.rng_in = s.rng_in.tail) (h2 : t.rng_count = s.rng_count + 1) (k : Nat) :
    drawAt t k = drawAt s (k + 1) := by
  simp only [drawAt, h1, h2, List.getElem?_tail]
  congr 2; omega

end Sys2Proof.Machine
end

