-- ==== Sys2Proof/Laws/Mixer.lean ====
section
/-! SUPPORT. The two loops over the eight slots: what each adds to a slot, the accesses it makes, and that it leaves all else
alone. -/

namespace Sys2Proof.Machine

open Sys2Proof.Safety

/-- `MixAdd` as a sum of bit patterns (R139). -/
theorem mixAdd_eq (i : Fin 8) (v : S16) (s : State) :
    mixAdd i v s = { s with
      buf := s.buf.set i (s.buf[i] + v), events := s.events ++ [.bufPair i s.buf[i] (s.buf[i] + v)] } := by
  unfold mixAdd
  simp only [wrapS_16_add]
  rfl

theorem mixAdd_get (i j : Fin 8) (v : S16) (s : State) :
    (mixAdd i v s).buf[j] = if j = i then s.buf[j] + v else s.buf[j] := by
  rw [mixAdd_eq]
  simp only [Fin.getElem_fin, Vector.getElem_set]
  by_cases h : i = j
  · subst h; simp
  · have h' : ¬(i : Nat) = j := fun e => h (Fin.ext e)
    simp [h', Ne.symm h]

/-- The ramp loop over any list of slots without repeats. -/
theorem foldl_mixAdd (f : Fin 8 → S16) (l : List (Fin 8)) (hl : l.Nodup) (s : State) :
    let t := l.foldl (fun t i => mixAdd i (f i) t) s
    t = { s with buf := t.buf, events := s.events ++ l.map fun i => .bufPair i s.buf[i] (s.buf[i] + f i) } ∧
    ∀ i, t.buf[i] = if i ∈ l then s.buf[i] + f i else s.buf[i] := by
  induction l generalizing s with
  | nil => simp
  | cons i l ih =>
    obtain ⟨hi, hl⟩ := List.nodup_cons.1 hl
    obtain ⟨h1, h2⟩ := ih hl (mixAdd i (f i) s)
    simp only [List.foldl_cons]
    have other : ∀ j ∈ l, (mixAdd i (f i) s).buf[j] = s.buf[j] := fun j hj => by
      have ne : j ≠ i := by rintro rfl; exact hi hj
      rw [mixAdd_get, if_neg ne]
    refine ⟨?_, fun j => ?_⟩
    · conv_lhs => rw [h1]
      have hmap : (l.map fun j => Event.bufPair j (mixAdd i (f i) s).buf[j] ((mixAdd i (f i) s).buf[j] + f j)) =
          l.map fun j => Event.bufPair j s.buf[j] (s.buf[j] + f j) :=
        List.map_congr_left fun j hj => by rw [other j hj]
      rw [hmap]
      generalize (List.foldl (fun t i => mixAdd i (f i) t) (mixAdd i (f i) s) l).buf = b
      rw [mixAdd_eq]
      simp
    · rw [h2]
      by_cases hj : j ∈ l
      · rw [if_pos hj, if_pos (List.mem_cons_of_mem _ hj), other j hj]
      · rw [if_neg hj, mixAdd_get]
        by_cases e : j = i
        · subst e; simp
        · simp [e, hj]

theorem slots_nodup : slots.Nodup := by decide

theorem mem_slots (i : Fin 8) : i ∈ slots := by revert i; decide

/-- The ramp's slots (R138). -/
theorem mixRamp_get (out : Vector S8 8) (s : State) (i : Fin 8) :
    (mixRamp out s).buf[i] = s.buf[i] + sext16 out[i] := by
  have h := (foldl_mixAdd (fun i => sext16 out[i]) slots slots_nodup s).2 i
  rwa [if_pos (mem_slots i)] at h

/-- The ramp's accesses, and that nothing else changes. -/
theorem mixRamp_frame (out : Vector S8 8) (s : State) :
    mixRamp out s = { s with
      buf := (mixRamp out s).buf
      events := s.events ++ slots.map fun i => .bufPair i s.buf[i] (s.buf[i] + sext16 out[i]) } :=
  (foldl_mixAdd (fun i => sext16 out[i]) slots slots_nodup s).1

/-! ### The treble loop (R135) -/

/-- The filter's outputs depend on the filter's registers alone. -/
theorem filterOutputs_congr {s t : State} (h : t.cfg = s.cfg ∧ t.a2 = s.a2 ∧ t.a3 = s.a3 ∧ t.b1 = s.b1 ∧ t.b2 = s.b2 ∧
    t.b3 = s.b3 ∧ t.xn_1 = s.xn_1 ∧ t.xn_2 = s.xn_2 ∧ t.yn_1 = s.yn_1 ∧ t.yn_2 = s.yn_2) (xs : List S16) :
    filterOutputs xs t = filterOutputs xs s := by
  induction xs generalizing s t with
  | nil => rfl
  | cons x xs ih =>
    obtain ⟨h0, h1, h2, h3, h4, h5, h6, h7, h8, h9⟩ := h
    have hy : filterOutput x t = filterOutput x s := by simp [filterOutput, *]
    simp only [filterOutputs]
    congr 1
    exact ih ⟨h0, h1, h2, h3, h4, h5, rfl, h6, hy, h8⟩

/-- One position: the draw, the filter step and the slot. -/
theorem treblePosition_eq (amp : Int) (s : State) (i : Fin 8) :
    let x := noiseSample (drawAt s 0)
    let y := filterOutput x s
    treblePosition amp s i = { s with
      rng_in := s.rng_in.tail, rng_count := s.rng_count + 1
      xn_2 := s.xn_1, xn_1 := x, yn_2 := s.yn_1, yn_1 := y
      buf := s.buf.set i (s.buf[i] + trebleScale y amp)
      events := s.events ++ [.rngByte (drawAt s 0), .bufPair i s.buf[i] (s.buf[i] + trebleScale y amp)] } := by
  simp only [treblePosition, mixAdd_eq, ← nextDraw_eq]
  simp [rngByte, record, filterGet, filterOutput]

/-- The inputs of the filter for the next `n` draws. -/
def nextNoise (n : Nat) (s : State) : List S16 := (List.range n).map fun j => noiseSample (drawAt s j)

theorem nextNoise_succ (n : Nat) (s t : State) (h1 : t.rng_in = s.rng_in.tail) (h2 : t.rng_count = s.rng_count + 1) :
    nextNoise (n + 1) s = noiseSample (drawAt s 0) :: nextNoise n t := by
  simp only [nextNoise, List.range_succ_eq_map, List.map_cons, List.map_map, List.cons.injEq, true_and]
  exact List.map_congr_left fun j _ => by simp [drawAt_after h1 h2]

/-- The treble loop over any list of slots without repeats. -/
theorem foldl_treblePosition (amp : Int) (l : List (Fin 8)) (hl : l.Nodup) (s : State) :
    let t := l.foldl (treblePosition amp) s
    let v := fun i => trebleScale ((filterOutputs (nextNoise l.length s) s).getD (l.idxOf i) 0) amp
    t = { s with
      buf := t.buf, xn_1 := t.xn_1, xn_2 := t.xn_2, yn_1 := t.yn_1, yn_2 := t.yn_2
      rng_in := s.rng_in.drop l.length, rng_count := s.rng_count + l.length
      events := s.events ++ l.flatMap fun i =>
        [.rngByte (drawAt s (l.idxOf i)), .bufPair i s.buf[i] (s.buf[i] + v i)] } ∧
    ∀ i, t.buf[i] = if i ∈ l then s.buf[i] + v i else s.buf[i] := by
  induction l generalizing s with
  | nil => simp
  | cons i l ih =>
    obtain ⟨hi, hl⟩ := List.nodup_cons.1 hl
    have hp := treblePosition_eq amp s i
    simp only at hp
    generalize hs1 : treblePosition amp s i = s1 at hp
    obtain ⟨h1, h2⟩ := ih hl s1
    have hrng : s1.rng_in = s.rng_in.tail := by rw [hp]
    have hcnt : s1.rng_count = s.rng_count + 1 := by rw [hp]
    have hbuf : ∀ j : Fin 8, s1.buf[j] = if j = i then s.buf[i] + trebleScale (filterOutput (noiseSample (drawAt s 0)) s) amp
        else s.buf[j] := fun j => by
      rw [hp]
      simp only [Fin.getElem_fin, Vector.getElem_set]
      by_cases h : i = j
      · subst h; simp
      · have h' : ¬(i : Nat) = j := fun e => h (Fin.ext e)
        simp [h', Ne.symm h]
    have hout : filterOutputs (nextNoise (l.length + 1) s) s =
        filterOutput (noiseSample (drawAt s 0)) s :: filterOutputs (nextNoise l.length s1) s1 := by
      rw [nextNoise_succ _ s s1 hrng hcnt]
      simp only [filterOutputs]
      congr 1
      refine (filterOutputs_congr ?_ _).symm
      rw [hp]
      exact ⟨rfl, rfl, rfl, rfl, rfl, rfl, rfl, rfl, rfl, rfl⟩
    have idx : ∀ j ∈ l, (i :: l).idxOf j = l.idxOf j + 1 := fun j hj => by
      have ne : i ≠ j := by rintro rfl; exact hi hj
      rw [List.idxOf_cons_ne _ ne]
    have val : ∀ j ∈ l, (filterOutputs (nextNoise (l.length + 1) s) s).getD ((i :: l).idxOf j) 0 =
        (filterOutputs (nextNoise l.length s1) s1).getD (l.idxOf j) 0 := fun j hj => by
      rw [idx j hj, hout]; rfl
    have other : ∀ j ∈ l, s1.buf[j] = s.buf[j] := fun j hj => by
      have ne : j ≠ i := by rintro rfl; exact hi hj
      rw [hbuf, if_neg ne]
    simp only [List.foldl_cons, List.length_cons, hs1]
    refine ⟨?_, fun j => ?_⟩
    · conv_lhs => rw [h1]
      have hmap : (l.flatMap fun j => [Event.rngByte (drawAt s1 (l.idxOf j)), Event.bufPair j s1.buf[j] (s1.buf[j] +
            trebleScale ((filterOutputs (nextNoise l.length s1) s1).getD (l.idxOf j) 0) amp)]) =
          l.flatMap fun j => [Event.rngByte (drawAt s ((i :: l).idxOf j)), Event.bufPair j s.buf[j] (s.buf[j] +
            trebleScale ((filterOutputs (nextNoise (l.length + 1) s) s).getD ((i :: l).idxOf j) 0) amp)] :=
        List.flatMap_congr fun j hj => by rw [val j hj, other j hj, idx j hj, drawAt_after hrng hcnt]
      rw [hmap]
      generalize List.foldl (treblePosition amp) s1 l = t
      rw [hp]
      simp [hout, Nat.add_assoc, Nat.add_comm 1]
    · rw [h2]
      by_cases hj : j ∈ l
      · rw [if_pos hj, if_pos (List.mem_cons_of_mem _ hj), other j hj, val j hj]
      · rw [if_neg hj, hbuf]
        by_cases e : j = i
        · subst e; simp [hout]
        · simp [e, hj]

/-- The filter after a list of inputs. -/
def filterAfter : List S16 → State → State
  | [],      s => s
  | x :: xs, s => filterAfter xs (filterGet x s).2

/-- Two states agree on the filter's registers and the parameters. -/
def SameFilter (s t : State) : Prop :=
  t.cfg = s.cfg ∧ t.a2 = s.a2 ∧ t.a3 = s.a3 ∧ t.b1 = s.b1 ∧ t.b2 = s.b2 ∧ t.b3 = s.b3 ∧ t.xn_1 = s.xn_1 ∧
  t.xn_2 = s.xn_2 ∧ t.yn_1 = s.yn_1 ∧ t.yn_2 = s.yn_2

theorem filterGet_sameFilter {s t : State} (h : SameFilter s t) (x : S16) :
    SameFilter (filterGet x s).2 (filterGet x t).2 := by
  obtain ⟨h0, h1, h2, h3, h4, h5, h6, h7, h8, h9⟩ := h
  have hy : filterOutput x t = filterOutput x s := by simp [filterOutput, *]
  exact ⟨h0, h1, h2, h3, h4, h5, rfl, h6, hy, h8⟩

theorem filterAfter_sameFilter {s t : State} (h : SameFilter s t) (xs : List S16) :
    SameFilter (filterAfter xs s) (filterAfter xs t) := by
  induction xs generalizing s t with
  | nil => exact h
  | cons x xs ih => exact ih (filterGet_sameFilter h x)

theorem SameFilter.trans {r s t : State} (h : SameFilter r s) (h' : SameFilter s t) : SameFilter r t := by
  obtain ⟨h0, h1, h2, h3, h4, h5, h6, h7, h8, h9⟩ := h
  obtain ⟨k0, k1, k2, k3, k4, k5, k6, k7, k8, k9⟩ := h'
  exact ⟨k0.trans h0, k1.trans h1, k2.trans h2, k3.trans h3, k4.trans h4, k5.trans h5, k6.trans h6, k7.trans h7,
    k8.trans h8, k9.trans h9⟩

/-- The treble loop moves the filter as its inputs do. -/
theorem foldl_treblePosition_filter (amp : Int) (l : List (Fin 8)) (s : State) :
    SameFilter (filterAfter (nextNoise l.length s) s) (l.foldl (treblePosition amp) s) := by
  induction l generalizing s with
  | nil => exact ⟨rfl, rfl, rfl, rfl, rfl, rfl, rfl, rfl, rfl, rfl⟩
  | cons i l ih =>
    have hp := treblePosition_eq amp s i
    simp only at hp
    have hn : nextNoise (l.length + 1) s = noiseSample (drawAt s 0) :: nextNoise l.length (treblePosition amp s i) :=
      nextNoise_succ _ _ _ (by rw [hp]) (by rw [hp])
    simp only [List.length_cons, List.foldl_cons, hn, filterAfter]
    refine (filterAfter_sameFilter ?_ _).trans (ih _)
    rw [hp]
    exact ⟨rfl, rfl, rfl, rfl, rfl, rfl, rfl, rfl, rfl, rfl⟩

/-- The filter's history after the treble path: the last two inputs and the last two outputs (R121, R135). -/
theorem trebleBlock_history (s : State) :
    (trebleBlock s).xn_1 = (nextNoise 8 s).getD 7 0 ∧ (trebleBlock s).xn_2 = (nextNoise 8 s).getD 6 0 ∧
    (trebleBlock s).yn_1 = (filterOutputs (nextNoise 8 s) s).getD 7 0 ∧
    (trebleBlock s).yn_2 = (filterOutputs (nextNoise 8 s) s).getD 6 0 := by
  obtain ⟨-, -, -, -, -, -, h6, h7, h8, h9⟩ := foldl_treblePosition_filter (amp8 s.treble_amp) slots s
  exact ⟨h6, h7, h8, h9⟩

/-- The treble path neither reads nor writes sample memory (R135). -/
theorem trebleBlock_with_sample_mem (s : State) (m : Memory) :
    trebleBlock { s with sample_mem := m } = { trebleBlock s with sample_mem := m } := by
  have step : ∀ (amp : Int) (t : State) (i : Fin 8),
      treblePosition amp { t with sample_mem := m } i = { treblePosition amp t i with sample_mem := m } :=
    fun _ _ _ => rfl
  have loop : ∀ (amp : Int) (l : List (Fin 8)) (t : State), l.foldl (treblePosition amp) { t with sample_mem := m } =
      { l.foldl (treblePosition amp) t with sample_mem := m } := by
    intro amp l
    induction l with
    | nil => intro t; rfl
    | cons i l ih => intro t; rw [List.foldl_cons, step, ih, List.foldl_cons]
  simp only [trebleBlock, loop]
  rfl

/-- The ramp loop neither reads nor writes sample memory (R138). -/
theorem mixRamp_with_sample_mem (out : Vector S8 8) (s : State) (m : Memory) :
    mixRamp out { s with sample_mem := m } = { mixRamp out s with sample_mem := m } := by
  have loop : ∀ (l : List (Fin 8)) (t : State),
      l.foldl (fun t i => mixAdd i (sext16 out[i]) t) { t with sample_mem := m } =
        { l.foldl (fun t i => mixAdd i (sext16 out[i]) t) t with sample_mem := m } := by
    intro l
    induction l with
    | nil => intro t; rfl
    | cons i l ih =>
      intro t
      have step : mixAdd i (sext16 out[i]) { t with sample_mem := m } =
          { mixAdd i (sext16 out[i]) t with sample_mem := m } := rfl
      rw [List.foldl_cons, step, ih, List.foldl_cons]
  exact loop slots s

theorem idxOf_slots (i : Fin 8) : slots.idxOf i = i.val := by revert i; decide

/-- The treble path's slots (R135), with `n` the noise of the next eight draws. -/
theorem trebleBlock_get (s : State) (i : Fin 8) :
    (trebleBlock s).buf[i] =
      s.buf[i] + trebleScale ((filterOutputs (nextNoise 8 s) s).getD i 0) (amp8 s.treble_amp) := by
  have h := (foldl_treblePosition (amp8 s.treble_amp) slots slots_nodup s).2 i
  simp only [if_pos (mem_slots i), idxOf_slots] at h
  exact h

/-- What else the treble path changes: the filter's history, the port, the amplitude, the history of accesses. -/
theorem trebleBlock_frame (s : State) :
    let t := trebleBlock s
    t = { s with
      buf := t.buf, xn_1 := t.xn_1, xn_2 := t.xn_2, yn_1 := t.yn_1, yn_2 := t.yn_2
      treble_amp := wrapS 32 (s.treble_amp.toInt - s.treble_step.toNat)
      rng_in := s.rng_in.drop 8, rng_count := s.rng_count + 8
      events := s.events ++ slots.flatMap fun (i : Fin 8) =>
        [.rngByte (drawAt s i.val), .bufPair i s.buf[i] (s.buf[i] +
          trebleScale ((filterOutputs (nextNoise 8 s) s).getD i 0) (amp8 s.treble_amp))] } := by
  have h := (foldl_treblePosition (amp8 s.treble_amp) slots slots_nodup s).1
  simp only [idxOf_slots] at h
  simp only [trebleBlock, trebleDecay]
  rw [h]
  rfl

end Sys2Proof.Machine
end

