-- ==== Sys2Proof/Laws/Commands.lean ====
section
/-! SUPPORT. The two commands: that each always completes, and the one named next state a `DECODE_BLOCK` answers, with
what each of its two paths leaves. -/

namespace Sys2Proof.Machine

open Sys2Proof.Safety

/-- The state in which the ramp of a block is drawn and added (R138). -/
def afterBassGet (s : State) : State := { afterGet s with bass_1 := s.bass_0, bass_0 := (afterGet s).recon_1 }

/-- The state after the bass half of a block. -/
def bassState (s : State) : State := if bassActive s then bassRamp (afterBassGet s) else s

/-- The state after a block. -/
def afterBlock (s : State) : State := treblePath (bassState s)

theorem bassBlock_active {s : State} (h : bassActive s = true) : bassBlock s = .next (bassRamp (afterBassGet s)) := by
  have h' : bassActive { s with bass_1 := s.bass_0 } = true := h
  simp only [bassBlock, deltaGet_active h', afterGet_with_bass_1, andThen]
  rfl

theorem bassPath_eq (s : State) : bassPath s = .next (bassState s) := by
  unfold bassPath bassState
  split
  · rename_i h; exact bassBlock_active h
  · rfl

/-- `DECODE_BLOCK` always answers this next state: no fault and no refusal is reached (R102, R160, R162). -/
theorem execDecodeBlock_eq (s : State) : execDecodeBlock s = .next (afterBlock s) := by
  simp [execDecodeBlock, bassPath_eq, andThen, afterBlock]

/-- What the bass half changes: the decoder, the two bass samples, the slots, the port, the history of accesses. -/
theorem bassState_frame (s : State) :
    bassState s = { s with
      pos := (bassState s).pos, byte_buf := (bassState s).byte_buf, sym_cnt := (bassState s).sym_cnt
      recon_1 := (bassState s).recon_1, recon_2 := (bassState s).recon_2, modifier := (bassState s).modifier
      bass_0 := (bassState s).bass_0, bass_1 := (bassState s).bass_1
      buf := (bassState s).buf, events := (bassState s).events
      rng_in := s.rng_in.drop (ditherDraws s), rng_count := s.rng_count + ditherDraws s } := by
  unfold bassState ditherDraws
  cases h : bassActive s
  · rfl
  · simp only [if_true, bassRamp, lerp8]
    rw [mixRamp_frame]
    simp [afterBassGet]

/-- The state the bass half leaves on an active decoder, register by register. -/
theorem bassState_active {s : State} (h : bassActive s = true) :
    (bassState s).pos = (afterGet s).pos ∧ (bassState s).byte_buf = (afterGet s).byte_buf ∧
    (bassState s).sym_cnt = (afterGet s).sym_cnt ∧ (bassState s).recon_1 = (afterGet s).recon_1 ∧
    (bassState s).recon_2 = (afterGet s).recon_2 ∧ (bassState s).modifier = (afterGet s).modifier ∧
    (bassState s).bass_0 = (afterGet s).recon_1 ∧ (bassState s).bass_1 = s.bass_0 := by
  unfold bassState
  simp only [h, if_true, bassRamp, lerp8]
  rw [mixRamp_frame]
  simp [afterBassGet]

theorem bassState_inactive {s : State} (h : bassActive s = false) : bassState s = s := by
  simp [bassState, h]

/-- What the bass half adds (R138). -/
theorem bassState_get (s : State) (i : Fin 8) : (bassState s).buf[i] = s.buf[i] + bassPart s i := by
  cases h : bassActive s
  · rw [bassState_inactive h]
    simp [bassPart, deltaGet_inactive h]
  · unfold bassState
    simp only [h, if_true, bassRamp, lerp8, mixRamp_get]
    simp only [bassPart, deltaGet_active h, rngByte_buf]
    have hd : drawAt (afterBassGet s) 0 = drawAt s 0 := drawAt_congr (by simp [afterBassGet]) (by simp [afterBassGet]) 0
    have hr : (rngByte (afterBassGet s)).1 = drawAt s 0 := by rw [← hd, ← nextDraw_eq]; rfl
    rw [hr]
    simp [afterBassGet]

/-- The accesses of the bass half (R64, R151). -/
theorem bassState_events (s : State) : (bassState s).events = s.events ++ bassEvents s := by
  cases h : bassActive s
  · rw [bassState_inactive h]
    simp [bassEvents, h]
  · unfold bassState bassEvents
    simp only [h, if_true, bassRamp, lerp8]
    rw [mixRamp_frame]
    have hd : drawAt (afterBassGet s) 0 = drawAt s 0 := drawAt_congr (by simp [afterBassGet]) (by simp [afterBassGet]) 0
    have hr : (rngByte (afterBassGet s)).1 = drawAt s 0 := by rw [← hd, ← nextDraw_eq]; rfl
    have hv : ∀ i : Fin 8, sext16 (lerpPoints (afterBassGet s).bass_1 (afterBassGet s).bass_0 (drawAt s 0))[i] = bassPart s i := by
      intro i; simp [bassPart, deltaGet_active h, afterBassGet]
    have he : (afterBassGet s).events = s.events ++
        (if s.sym_cnt = 0 then [.sampleRead (sampleAddress s) (s.sample_mem.read (sampleAddress s))] else []) := by
      simp only [afterBassGet, afterGet_events]
      by_cases h0 : s.sym_cnt = 0
      · rw [fetch_of_empty h h0, if_pos h0]; rfl
      · rw [fetch_of_symbols h0, if_neg h0]; simp
    simp only [hr, hv, rngByte_events, nextDraw_eq, hd, he, rngByte_buf]
    simp [afterBassGet]

/-- The treble half, from the state the bass half leaves: what it adds, in terms of the state at entry (R135, R150). -/
theorem treble_after_bass (s : State) :
    trebleActive (bassState s) = trebleActive s ∧ (bassState s).treble_amp = s.treble_amp ∧
    filterOutputs (nextNoise 8 (bassState s)) (bassState s) = filterOutputs (noiseSamples s) s ∧
    ∀ k, drawAt (bassState s) k = drawAt s (ditherDraws s + k) := by
  have hf := bassState_frame s
  have hd : ∀ k, drawAt (bassState s) k = drawAt s (ditherDraws s + k) := fun k => by
    rw [hf]; simp [drawAt, Nat.add_assoc]
  have ha : (bassState s).treble_amp = s.treble_amp := by rw [hf]
  refine ⟨by simp [trebleActive, ha], ha, ?_, hd⟩
  have hn : nextNoise 8 (bassState s) = noiseSamples s := by simp [nextNoise, noiseSamples, hd]
  rw [hn]
  apply filterOutputs_congr
  rw [hf]
  exact ⟨rfl, rfl, rfl, rfl, rfl, rfl, rfl, rfl, rfl, rfl⟩

/-- What a block adds to a slot: the two contributions (R138, R135). -/
theorem block_get (s : State) (i : Fin 8) :
    (afterBlock s).buf[i] = s.buf[i] + bassPart s i + treblePart s i := by
  obtain ⟨h1, h2, h3, -⟩ := treble_after_bass s
  unfold afterBlock treblePath treblePart
  rw [h1]
  cases h : trebleActive s
  · simpa using bassState_get s i
  · simp only [if_true]
    rw [trebleBlock_get, bassState_get, h2, h3]

/-- The accesses of a block in order (R64). -/
theorem block_events (s : State) :
    (afterBlock s).events = s.events ++ bassEvents s ++ trebleEvents s := by
  obtain ⟨h1, h2, h3, h4⟩ := treble_after_bass s
  unfold afterBlock treblePath trebleEvents
  rw [h1]
  cases h : trebleActive s
  · simp [bassState_events]
  · simp only [if_true]
    rw [trebleBlock_frame]
    simp only [bassState_events, bassState_get, h2, h3, h4, treblePart, h, if_true]

/-- What a block leaves alone, and what it does to the port and the amplitude. -/
theorem block_frame (s : State) :
    let t := afterBlock s
    t = { bassState s with
      buf := t.buf, events := t.events, xn_1 := t.xn_1, xn_2 := t.xn_2, yn_1 := t.yn_1, yn_2 := t.yn_2
      treble_amp := if trebleActive s then wrapS 32 (s.treble_amp.toInt - s.treble_step.toNat) else s.treble_amp
      rng_in := s.rng_in.drop (blockDraws s), rng_count := s.rng_count + blockDraws s } := by
  obtain ⟨h1, h2, -, -⟩ := treble_after_bass s
  have hf := bassState_frame s
  have hstep : (bassState s).treble_step = s.treble_step := by rw [hf]
  have hin : (bassState s).rng_in = s.rng_in.drop (ditherDraws s) := by rw [hf]
  have hct : (bassState s).rng_count = s.rng_count + ditherDraws s := by rw [hf]
  have hdraws : blockDraws s = ditherDraws s + if trebleActive s then 8 else 0 := rfl
  unfold afterBlock treblePath
  rw [h1, hdraws]
  cases h : trebleActive s
  · simp only [Bool.false_eq_true, if_false]
    rw [Nat.add_zero, ← hin, ← hct, ← h2]
  · simp only [if_true]
    conv_lhs => rw [trebleBlock_frame]
    simp only [h2, hstep, hin, hct, List.drop_drop, Nat.add_assoc]
    generalize hb : trebleBlock (bassState s) = b
    have he := congrArg State.events (trebleBlock_frame (bassState s))
    rw [hb] at he
    rw [he]
    simp [h2]

/-- The filter's history after a block: moved by the block's noise where the treble layer is active, else unchanged. -/
theorem block_history (s : State) :
    let t := afterBlock s
    (trebleActive s = true →
      t.xn_1 = (noiseSamples s).getD 7 0 ∧ t.xn_2 = (noiseSamples s).getD 6 0 ∧
      t.yn_1 = (filterOutputs (noiseSamples s) s).getD 7 0 ∧ t.yn_2 = (filterOutputs (noiseSamples s) s).getD 6 0) ∧
    (trebleActive s = false →
      t.xn_1 = s.xn_1 ∧ t.xn_2 = s.xn_2 ∧ t.yn_1 = s.yn_1 ∧ t.yn_2 = s.yn_2) := by
  obtain ⟨h1, -, h3, h4⟩ := treble_after_bass s
  have hn : nextNoise 8 (bassState s) = noiseSamples s := by simp [nextNoise, noiseSamples, h4]
  unfold afterBlock treblePath
  rw [h1]
  refine ⟨fun h => ?_, fun h => ?_⟩
  · have hh := trebleBlock_history (bassState s)
    rw [h3, hn] at hh
    simpa only [h, if_true] using hh
  · simp only [h, Bool.false_eq_true, if_false]
    rw [bassState_frame]
    exact ⟨rfl, rfl, rfl, rfl⟩

/-! ### The state after a block, field by field -/

/-- `DECODE_BLOCK` completes in every state (R146). -/
theorem exec_decodeBlock (s : State) : exec .decodeBlock s = .next (afterBlock s) := execDecodeBlock_eq s

@[simp] theorem bassState_cfg (s : State) : (bassState s).cfg = s.cfg := by rw [bassState_frame]

@[simp] theorem bassState_base (s : State) : (bassState s).base = s.base := by rw [bassState_frame]

@[simp] theorem bassState_end_pos (s : State) : (bassState s).end_pos = s.end_pos := by rw [bassState_frame]

@[simp] theorem bassState_a2 (s : State) : (bassState s).a2 = s.a2 := by rw [bassState_frame]

@[simp] theorem bassState_a3 (s : State) : (bassState s).a3 = s.a3 := by rw [bassState_frame]

@[simp] theorem bassState_b1 (s : State) : (bassState s).b1 = s.b1 := by rw [bassState_frame]

@[simp] theorem bassState_b2 (s : State) : (bassState s).b2 = s.b2 := by rw [bassState_frame]

@[simp] theorem bassState_b3 (s : State) : (bassState s).b3 = s.b3 := by rw [bassState_frame]

@[simp] theorem bassState_xn_1 (s : State) : (bassState s).xn_1 = s.xn_1 := by rw [bassState_frame]

@[simp] theorem bassState_xn_2 (s : State) : (bassState s).xn_2 = s.xn_2 := by rw [bassState_frame]

@[simp] theorem bassState_yn_1 (s : State) : (bassState s).yn_1 = s.yn_1 := by rw [bassState_frame]

@[simp] theorem bassState_yn_2 (s : State) : (bassState s).yn_2 = s.yn_2 := by rw [bassState_frame]

@[simp] theorem bassState_treble_amp (s : State) : (bassState s).treble_amp = s.treble_amp := by rw [bassState_frame]

@[simp] theorem bassState_treble_step (s : State) : (bassState s).treble_step = s.treble_step := by rw [bassState_frame]

@[simp] theorem bassState_sample_mem (s : State) : (bassState s).sample_mem = s.sample_mem := by rw [bassState_frame]

@[simp] theorem bassState_host_in (s : State) : (bassState s).host_in = s.host_in := by rw [bassState_frame]

@[simp] theorem bassState_free_count (s : State) : (bassState s).free_count = s.free_count := by rw [bassState_frame]

@[simp] theorem afterBlock_cfg (s : State) : (afterBlock s).cfg = s.cfg := by rw [block_frame]; simp

@[simp] theorem afterBlock_base (s : State) : (afterBlock s).base = s.base := by rw [block_frame]; simp

@[simp] theorem afterBlock_end_pos (s : State) : (afterBlock s).end_pos = s.end_pos := by rw [block_frame]; simp

@[simp] theorem afterBlock_a2 (s : State) : (afterBlock s).a2 = s.a2 := by rw [block_frame]; simp

@[simp] theorem afterBlock_a3 (s : State) : (afterBlock s).a3 = s.a3 := by rw [block_frame]; simp

@[simp] theorem afterBlock_b1 (s : State) : (afterBlock s).b1 = s.b1 := by rw [block_frame]; simp

@[simp] theorem afterBlock_b2 (s : State) : (afterBlock s).b2 = s.b2 := by rw [block_frame]; simp

@[simp] theorem afterBlock_b3 (s : State) : (afterBlock s).b3 = s.b3 := by rw [block_frame]; simp

@[simp] theorem afterBlock_treble_step (s : State) : (afterBlock s).treble_step = s.treble_step := by rw [block_frame]; simp

@[simp] theorem afterBlock_sample_mem (s : State) : (afterBlock s).sample_mem = s.sample_mem := by rw [block_frame]; simp

@[simp] theorem afterBlock_host_in (s : State) : (afterBlock s).host_in = s.host_in := by rw [block_frame]; simp

@[simp] theorem afterBlock_free_count (s : State) : (afterBlock s).free_count = s.free_count := by rw [block_frame]; simp

theorem afterBlock_pos (s : State) : (afterBlock s).pos = if bassActive s then (afterGet s).pos else s.pos := by
  rw [block_frame]
  by_cases h : bassActive s = true
  · rw [if_pos h]; exact (bassState_active h).1
  · rw [if_neg h, bassState_inactive (Bool.eq_false_iff.2 h)]

theorem afterBlock_byte_buf (s : State) : (afterBlock s).byte_buf = if bassActive s then (afterGet s).byte_buf else s.byte_buf := by
  rw [block_frame]
  by_cases h : bassActive s = true
  · rw [if_pos h]; exact (bassState_active h).2.1
  · rw [if_neg h, bassState_inactive (Bool.eq_false_iff.2 h)]

theorem afterBlock_sym_cnt (s : State) : (afterBlock s).sym_cnt = if bassActive s then (afterGet s).sym_cnt else s.sym_cnt := by
  rw [block_frame]
  by_cases h : bassActive s = true
  · rw [if_pos h]; exact (bassState_active h).2.2.1
  · rw [if_neg h, bassState_inactive (Bool.eq_false_iff.2 h)]

theorem afterBlock_recon_1 (s : State) : (afterBlock s).recon_1 = if bassActive s then (afterGet s).recon_1 else s.recon_1 := by
  rw [block_frame]
  by_cases h : bassActive s = true
  · rw [if_pos h]; exact (bassState_active h).2.2.2.1
  · rw [if_neg h, bassState_inactive (Bool.eq_false_iff.2 h)]

theorem afterBlock_recon_2 (s : State) : (afterBlock s).recon_2 = if bassActive s then (afterGet s).recon_2 else s.recon_2 := by
  rw [block_frame]
  by_cases h : bassActive s = true
  · rw [if_pos h]; exact (bassState_active h).2.2.2.2.1
  · rw [if_neg h, bassState_inactive (Bool.eq_false_iff.2 h)]

theorem afterBlock_modifier (s : State) : (afterBlock s).modifier = if bassActive s then (afterGet s).modifier else s.modifier := by
  rw [block_frame]
  by_cases h : bassActive s = true
  · rw [if_pos h]; exact (bassState_active h).2.2.2.2.2.1
  · rw [if_neg h, bassState_inactive (Bool.eq_false_iff.2 h)]

theorem afterBlock_bass_0 (s : State) : (afterBlock s).bass_0 = if bassActive s then (afterGet s).recon_1 else s.bass_0 := by
  rw [block_frame]
  by_cases h : bassActive s = true
  · rw [if_pos h]; exact (bassState_active h).2.2.2.2.2.2.1
  · rw [if_neg h, bassState_inactive (Bool.eq_false_iff.2 h)]

theorem afterBlock_bass_1 (s : State) : (afterBlock s).bass_1 = if bassActive s then s.bass_0 else s.bass_1 := by
  rw [block_frame]
  by_cases h : bassActive s = true
  · rw [if_pos h]; exact (bassState_active h).2.2.2.2.2.2.2
  · rw [if_neg h, bassState_inactive (Bool.eq_false_iff.2 h)]

theorem afterBlock_treble_amp (s : State) : (afterBlock s).treble_amp =
    if trebleActive s then wrapS 32 (s.treble_amp.toInt - s.treble_step.toNat) else s.treble_amp := by
  rw [block_frame]

/-- The amplitude after a block as an integer: the wrap of R136 never acts. -/
theorem afterBlock_treble_amp_toInt (s : State) : (afterBlock s).treble_amp.toInt =
    if 0 < s.treble_amp.toInt then s.treble_amp.toInt - s.treble_step.toNat else s.treble_amp.toInt := by
  have h1 := s32_range s.treble_amp
  have h2 := s.treble_step.isLt
  rw [afterBlock_treble_amp]
  by_cases h : 0 < s.treble_amp.toInt
  · rw [if_pos ((trebleActive_iff s).2 h), if_pos h, wrapS_32_of_range]; omega
  · rw [if_neg (fun e => h ((trebleActive_iff s).1 e)), if_neg h]

theorem afterBlock_rng_in (s : State) : (afterBlock s).rng_in = s.rng_in.drop (blockDraws s) := by rw [block_frame]

theorem afterBlock_rng_count (s : State) : (afterBlock s).rng_count = s.rng_count + blockDraws s := by rw [block_frame]

/-- `TRIGGER` always completes. -/
theorem execTrigger_completes (vd : VoiceDef) (s : State) : Completes (execTrigger vd s) := ⟨_, rfl⟩

/-! ### The host's writes to sample memory, and an abandoned block -/

/-- What `sampleOffset` answers: the least offset from 1 on at which the address stands. -/
theorem sampleOffset_spec {x : Nat} (s : State) (hx : x < 2 ^ s.cfg.addrW) :
    1 ≤ sampleOffset x s ∧ (s.base + sampleOffset x s) % 2 ^ s.cfg.addrW = x ∧
    ∀ k, 1 ≤ k → (s.base + k) % 2 ^ s.cfg.addrW = x → sampleOffset x s ≤ k := by
  unfold sampleOffset
  simp only
  generalize 2 ^ s.cfg.addrW = w at *
  have hb : s.base % w < w := Nat.mod_lt _ (by omega)
  obtain ⟨q, hq⟩ : ∃ q, s.base = s.base % w + w * q := ⟨s.base / w, (Nat.mod_add_div _ _).symm⟩
  generalize s.base % w = r at *
  generalize hm : x + (w - r) + (w - 1) = m
  refine ⟨by omega, ?_, fun k hk h => ?_⟩
  · have e : r + w * q + (m % w + 1) = (r + 1 + m % w) + w * q := by omega
    rw [hq, e, Nat.add_mul_mod_self_left, Nat.add_mod_mod, show r + 1 + m = x + w * 2 by omega, Nat.add_mul_mod_self_left,
      Nat.mod_eq_of_lt hx]
  · have e : m % w = (k - 1) % w := by
      have h2 : (m + (r + 1)) % w = ((k - 1) + (r + 1)) % w := by
        rw [show m + (r + 1) = x + w * 2 by omega, Nat.add_mul_mod_self_left, Nat.mod_eq_of_lt hx, ← h, hq,
          show r + w * q + k = (k - 1 + (r + 1)) + w * q by omega, Nat.add_mul_mod_self_left]
      exact Nat.ModEq.add_right_cancel' _ h2
    have := Nat.mod_le (k - 1) w
    omega

/-- The test the host's write goes through is R63's range of bytes. -/
theorem activeSampleByte_iff {x : Nat} (s : State) (hx : x < 2 ^ s.cfg.addrW) :
    activeSampleByte x s = true ↔ ActiveSampleByte s x := by
  obtain ⟨h1, h2, h3⟩ := sampleOffset_spec s hx
  simp only [activeSampleByte, ActiveSampleByte, Bool.and_eq_true, decide_eq_true_eq]
  refine and_congr_right fun _ => ⟨fun h => ⟨_, h1, h, h2⟩, ?_⟩
  rintro ⟨k, k1, k2, k3⟩
  exact lt_of_le_of_lt (h3 k k1 k3) k2

/-- Everything the host's write can do. -/
theorem hostWriteSample_cases (a : Nat) (b : U8) (s : State) :
    (ActiveSampleByte s (a % 2 ^ s.cfg.addrW) ∧ hostWriteSample a b s = .refused .hostWriteToActiveSample) ∨
    (¬ ActiveSampleByte s (a % 2 ^ s.cfg.addrW) ∧ hostWriteSample a b s = .next (writeSampleByte a b s)) := by
  rw [← activeSampleByte_iff s (Nat.mod_lt _ (Nat.two_pow_pos _))]
  unfold hostWriteSample wrapU
  split <;> simp_all

/-- The accesses of a block are those of its two paths (R64). -/
theorem blockTrace_eq (s : State) : blockTrace s = bassEvents s ++ trebleEvents s := by
  rw [blockTrace, execDecodeBlock_eq]
  simp only [block_events]
  rw [List.append_assoc, List.drop_left]

theorem bassPart_with_host_in (s : State) (r : List HostAction) (i : Fin 8) :
    bassPart { s with host_in := r } i = bassPart s i := by
  by_cases h : bassActive s = true
  · have h' : bassActive { s with host_in := r } = true := h
    simp only [bassPart, deltaGet_active h, deltaGet_active h']
    congr 3
    by_cases h0 : s.sym_cnt = 0
    · simp only [afterGet]
      rw [fetch_of_empty h h0, fetch_of_empty (s := { s with host_in := r }) h' h0]
      rfl
    · simp only [afterGet]
      rw [fetch_of_symbols h0, fetch_of_symbols (s := { s with host_in := r }) h0]
      rfl
  · have h := Bool.eq_false_iff.2 h
    have h' : bassActive { s with host_in := r } = false := h
    simp only [bassPart, deltaGet_inactive h, deltaGet_inactive h']

theorem treblePart_with_host_in (s : State) (r : List HostAction) (i : Fin 8) :
    treblePart { s with host_in := r } i = treblePart s i := by
  have h := filterOutputs_congr (s := s) (t := { s with host_in := r })
    ⟨rfl, rfl, rfl, rfl, rfl, rfl, rfl, rfl, rfl, rfl⟩ (noiseSamples s)
  have e : noiseSamples { s with host_in := r } = noiseSamples s := rfl
  unfold treblePart
  rw [e, h]
  rfl

/-- A block's accesses do not depend on what the host does next. -/
theorem bassEvents_with_host_in (s : State) (r : List HostAction) : bassEvents { s with host_in := r } = bassEvents s := by
  simp only [bassEvents, bassPart_with_host_in]
  rfl

theorem trebleEvents_with_host_in (s : State) (r : List HostAction) :
    trebleEvents { s with host_in := r } = trebleEvents s := by
  simp only [trebleEvents, bassPart_with_host_in, treblePart_with_host_in]
  rfl

/-- A block's accesses hold as many draws as R150 counts. -/
theorem blockEvents_draws (s : State) : (bassEvents s ++ trebleEvents s).countP isDraw = blockDraws s := by
  have b : (bassEvents s).countP isDraw = if bassActive s then 1 else 0 := by
    unfold bassEvents
    split
    · split <;> rfl
    · rfl
  have t : (trebleEvents s).countP isDraw = if trebleActive s then 8 else 0 := by
    unfold trebleEvents
    split <;> rfl
  rw [List.countP_append, b, t, blockDraws]

end Sys2Proof.Machine
end

