-- ==== Sys2Proof/Laws/Encoding.lean ====
section
/-! SUPPORT. The operand record as packed fields: each field comes out of the lines it was put on, and a record fits the
sum of its fields' widths. -/

namespace Sys2Proof

/-- The lowest field of a packed record, and the record of the others. -/
theorem takeField_packFields (w v : Nat) (fs : List (Nat × Nat)) :
    takeField w (packFields ((w, v) :: fs)) = (v % 2 ^ w, packFields fs) := by
  have hp : 0 < 2 ^ w := Nat.two_pow_pos w
  have hv : v % 2 ^ w < 2 ^ w := Nat.mod_lt _ hp
  simp only [takeField, packFields, Prod.mk.injEq]
  constructor
  · rw [Nat.add_mul_mod_self_left, Nat.mod_mod]
  · rw [Nat.add_mul_div_left _ _ hp, Nat.div_eq_of_lt hv, Nat.zero_add]

/-- A packed record fits the sum of its fields' widths. -/
theorem packFields_lt (fs : List (Nat × Nat)) : packFields fs < 2 ^ (fs.map Prod.fst).sum := by
  induction fs with
  | nil => simp [packFields]
  | cons f fs ih =>
    obtain ⟨w, v⟩ := f
    have hv : v % 2 ^ w < 2 ^ w := Nat.mod_lt _ (Nat.two_pow_pos w)
    simp only [packFields, List.map_cons, List.sum_cons, pow_add]
    calc v % 2 ^ w + 2 ^ w * packFields fs < 2 ^ w + 2 ^ w * packFields fs := by omega
      _ = 2 ^ w * (packFields fs + 1) := by ring
      _ ≤ 2 ^ w * 2 ^ (fs.map Prod.fst).sum := Nat.mul_le_mul_left _ ih

/-- The record of a voice definition fits its 88 + ADDR_W lines (R71). -/
theorem encodeVoiceDef_lt (addrW : Nat) (vd : VoiceDef) : encodeVoiceDef addrW vd < 2 ^ operandWidth addrW := by
  have h := packFields_lt (vd.fields addrW)
  have hw : ((vd.fields addrW).map Prod.fst).sum = operandWidth addrW := by
    simp [VoiceDef.fields, operandWidth]; omega
  rwa [hw] at h

end Sys2Proof
end

