-- ==== Sys2Proof/Laws/PerInstr.lean ====
section
/-! SUPPORT. A fact of every instruction as syntax, one lemma for each constructor: its words fit its format (R70, R71,
R73), a symbol's code 2 bits and no operand, a command's code 1 bit and its operand the 88 + ADDR_W lines. -/

namespace Sys2Proof.Laws.EncodingFits

/-- The words of the instruction fit their format, whatever the core's parameters. -/
def Statement (i : Sys2Proof.Instr) : Prop :=
  ∀ cfg : Sys2Proof.Config,
    match (Sys2Proof.encode cfg i).format with
    | .sym2 => (Sys2Proof.encode cfg i).code < 4 ∧ (Sys2Proof.encode cfg i).operand = 0
    | .cmd  => (Sys2Proof.encode cfg i).code < 2 ∧
        (Sys2Proof.encode cfg i).operand < 2 ^ Sys2Proof.operandWidth cfg.addrW

theorem keep : Statement .keep := fun _ => ⟨by simp [Sys2Proof.encode], rfl⟩

theorem neg : Statement .neg := fun _ => ⟨by simp [Sys2Proof.encode], rfl⟩

theorem dbl : Statement .dbl := fun _ => ⟨by simp [Sys2Proof.encode], rfl⟩

theorem hlv : Statement .hlv := fun _ => ⟨by simp [Sys2Proof.encode], rfl⟩

theorem trigger (vd : Sys2Proof.VoiceDef) : Statement (.trigger vd) :=
  fun cfg => ⟨by simp [Sys2Proof.encode], Sys2Proof.encodeVoiceDef_lt cfg.addrW vd⟩

theorem decodeBlock : Statement .decodeBlock := fun _ => ⟨by simp [Sys2Proof.encode], Nat.two_pow_pos _⟩

end Sys2Proof.Laws.EncodingFits
end

