-- ==== Sys2Proof/Tests/Slice0.lean ====
section
/-! SUPPORT. Tests of one step each, their expected results taken from spec/ (95_test_vectors.md and the rules' own corner
cases), and for every obligation with hypotheses a witness that meets them. -/

open Sys2Proof Sys2Proof.Machine Sys2Proof.Safety

namespace Sys2Proof.Tests

/-! ### Small states -/

/-- The next state of an outcome. -/
def nextOf : Host.Outcome State Fault Refusal → Option State
  | .next s    => some s
  | .fault _   => none
  | .refused _ => none

/-- The refusal of an outcome. -/
def refusalOf : Host.Outcome State Fault Refusal → Option Refusal
  | .next _    => none
  | .fault _   => none
  | .refused r => some r

/-- After reset, with a step size and a reconstruction history. -/
def recon (r1 r2 m : S8) : State := { State.reset with recon_1 := r1, recon_2 := r2, modifier := m }

/-- The voice of program P4 (95_test_vectors.md Part 3). -/
def voiceP4 : VoiceDef :=
  { initial := 0x4000, increment := 0x2000, a2 := -90, a3 := 96, b1 := 127, b2 := 0, b3 := -127
    sampleBase := 0x0300, sampleLen := 2 }

/-- The state program P4 gives after its `TRIGGER`, with the sample bytes and block 1's draws. -/
def startP4 : State :=
  { State.reset with
    base := 0x0300, pos := 1, end_pos := 3, treble_amp := 16384, treble_step := 8192
    a2 := -90, a3 := 96, b1 := 127, b2 := 0, b3 := -127
    sample_mem := [(0x0301, 0x6A), (0x0302, 0xFC)]
    rng_in := [0x7F, 0x7F, 0x80, 0x40, 0xC0, 0x01, 0xFF, 0x55, 0xAA] }

/-- Program P2 after its `TRIGGER`: treble only. -/
def startP2 : State :=
  { State.reset with
    treble_amp := 512, treble_step := 256, a2 := -90, a3 := 96, b1 := 127, b2 := 0, b3 := -127
    rng_in := [0x7F, 0x80, 0x7F, 0x80, 0x7F, 0x80, 0x7F, 0x80] }

/-- Trace T1 before its call 4: two symbols left, the next `NEG` in the byte 01. -/
def midT1 : State :=
  { State.reset with
    base := 0x0100, pos := 2, end_pos := 4, byte_buf := 0x01, sym_cnt := 1, recon_1 := 9, recon_2 := 4, modifier := 2 }

/-- A filter with its coefficients and history. -/
def filter (a2 a3 b1 b2 b3 : S8) (xn1 xn2 yn1 yn2 : S16) : State :=
  { State.reset with a2 := a2, a3 := a3, b1 := b1, b2 := b2, b3 := b3, xn_1 := xn1, xn_2 := xn2, yn_1 := yn1, yn_2 := yn2 }

/-! ### WellFormed smoke test -/

/-- R71: `sample_base` is 16 bits wide at the default `ADDR_W`; 65536 is refused. -/
theorem test_wellFormed_refuses_wide_base :
    (Instr.trigger { voiceP4 with sampleBase := 65536 }).wellFormed {} = false := by decide

/-- R10: with `ADDR_W` 8 the base 256 is refused, 255 is not. -/
theorem test_wellFormed_follows_addrW :
    (Instr.trigger { voiceP4 with sampleBase := 256 }).wellFormed { addrW := 8 } = false ∧
    (Instr.trigger { voiceP4 with sampleBase := 255 }).wellFormed { addrW := 8 } = true := by decide

/-- Witness of DecodeOfEncodeIsTheInstruction: the widest base, and each instruction without operand. -/
theorem witness_wellFormed :
    (Instr.trigger { voiceP4 with sampleBase := 65535 }).wellFormed {} = true ∧ Instr.keep.wellFormed {} = true ∧
    Instr.neg.wellFormed {} = true ∧ Instr.dbl.wellFormed {} = true ∧ Instr.hlv.wellFormed {} = true ∧
    Instr.decodeBlock.wellFormed {} = true := by decide

/-! ### Decoding, each word written out from 30_encoding.md -/

/-- R73: KEEP is 00. -/
theorem test_decode_keep : decode {} { format := .sym2, code := 0b00, operand := 0 } = .ok .keep := by decide
/-- R73: NEG is 01. -/
theorem test_decode_neg : decode {} { format := .sym2, code := 0b01, operand := 0 } = .ok .neg := by decide
/-- R73: DBL is 10. -/
theorem test_decode_dbl : decode {} { format := .sym2, code := 0b10, operand := 0 } = .ok .dbl := by decide
/-- R73: HLV is 11. -/
theorem test_decode_hlv : decode {} { format := .sym2, code := 0b11, operand := 0 } = .ok .hlv := by decide
/-- R70: DECODE_BLOCK is command 1. -/
theorem test_decode_decodeBlock : decode {} { format := .cmd, code := 0b1, operand := 0 } = .ok .decodeBlock := by decide
/-- R70, R71 and P4's fields: TRIGGER is command 0. Read from the top: sample_len 0002, sample_base 0300, b3 81, b2 00, b1 7F,
a3 60, a2 A6, increment 2000, initial 4000 (places: log entry 9). -/
theorem test_decode_trigger :
    decode {} { format := .cmd, code := 0b0, operand := 0x0002030081007F60A620004000 } = .ok (.trigger voiceP4) := by decide

/-- A symbol code has 2 bits, a command code 1, and an operand record 104; a symbol has no operand. -/
theorem test_decode_rejects_by_name :
    decode {} { format := .sym2, code := 4, operand := 0 } = .error .codeTooWide ∧
    decode {} { format := .cmd, code := 2, operand := 0 } = .error .codeTooWide ∧
    decode {} { format := .cmd, code := 0, operand := 2 ^ 104 } = .error .operandTooWide ∧
    decode {} { format := .sym2, code := 0, operand := 1 } = .error .symbolWithOperand := by decide

/-- R72: the byte 6A holds 2, 2, 2, 1; and back. -/
theorem test_data_byte :
    decodeSymbolByte 0x6A = [.dbl, .dbl, .dbl, .neg] ∧ encodeSymbolByte .dbl .dbl .dbl .neg = 0x6A ∧
    packSymbols [.dbl, .dbl, .dbl, .neg, .keep, .hlv, .hlv, .hlv] = [0x6A, 0xFC] ∧ packSymbols [.dbl] = [0x02] := by decide

/-- The rows of opcode_table.json at their own widths; and in whole bytes, where the command codes come first (log entry 11). -/
theorem test_table_words :
    [decodeTableWord 2 0, decodeTableWord 2 1, decodeTableWord 2 2, decodeTableWord 2 3, decodeTableWord 1 1] =
      [some .keep, some .neg, some .dbl, some .hlv, some .decodeBlock] ∧
    decodeTableWord 1 0 = some (.trigger silentVoice) ∧ decodeTableWord 1 2 = none ∧
    decodeTableWord 8 0 = some (.trigger silentVoice) ∧ decodeTableWord 8 1 = some .decodeBlock ∧
    decodeTableWord 8 2 = some .dbl ∧ decodeTableWord 8 3 = some .hlv := by decide

/-- Witness of EncodeOfDecodedTriggerIsItsRecord and NoIllegalEncoding: the least and the greatest record and code. -/
theorem witness_record_bounds : 0 < 2 ^ operandWidth 16 ∧ 2 ^ 104 - 1 < 2 ^ operandWidth ({} : Config).addrW ∧
    0 < 4 ∧ 3 < 4 ∧ 0 < 2 ∧ 1 < 2 := by decide

/-! ### The symbols (95_test_vectors.md 2.1, 2.2) -/

/-- 2.1: `KEEP`. -/
theorem test_keep : ([0, 127, -128].map fun m => (nextOf (exec .keep (recon 0 0 m))).map (·.modifier)) =
    [some 0, some 127, some (-128)] := by decide
/-- 2.2, row 10, 20, -128: `KEEP` reconstructs with the modifier it keeps, and the history moves on. -/
theorem test_keep_reconstructs : (nextOf (exec .keep (recon 10 20 (-128)))).map (fun t => (t.recon_1, t.recon_2)) =
    some (-128, 10) := by decide
/-- 2.1: `NEG`. -/
theorem test_neg : ([0, 127, -1, -128].map fun m => (nextOf (exec .neg (recon 0 0 m))).map (·.modifier)) =
    [some 0, some (-127), some 1, some (-128)] := by decide
/-- T1 call 4: `NEG` of 2 after 9, 4 gives 12, with the new modifier. -/
theorem test_neg_reconstructs : (nextOf (exec .neg (recon 9 4 2))).map (fun t => (t.recon_1, t.recon_2)) =
    some (12, 9) := by decide
/-- 2.1: `DBL`. -/
theorem test_dbl : ([0, 63, 64, 65, 127, -65, -127, -128].map fun m => (nextOf (exec .dbl (recon 0 0 m))).map (·.modifier)) =
    [some 1, some 126, some (-128), some (-126), some (-2), some 126, some 2, some 0] := by decide
/-- T2 call 7: the prediction wraps, 183 to -73, then -9. -/
theorem test_dbl_reconstructs : (nextOf (exec .dbl (recon 120 57 32))).map (fun t => (t.recon_1, t.modifier)) =
    some (-9, 64) := by decide
/-- 2.1: `HLV`. -/
theorem test_hlv : ([0, 1, 3, 127, -1, -3, -65, -128].map fun m => (nextOf (exec .hlv (recon 0 0 m))).map (·.modifier)) =
    [some (-1), some 0, some 1, some 63, some (-1), some (-2), some (-33), some (-64)] := by decide
/-- T1 call 5: `HLV` of -2 after 12, 9 gives 14. -/
theorem test_hlv_reconstructs : (nextOf (exec .hlv (recon 12 9 (-2)))).map (fun t => (t.recon_1, t.recon_2)) =
    some (14, 12) := by decide

/-! ### The primitives -/

/-- 2.2: the two wraps of the reconstruction. -/
theorem test_reconstruct :
    [(reconstruct (recon 100 (-100) 0)).recon_1, (reconstruct (recon 127 (-128) 0)).recon_1,
     (reconstruct (recon (-64) 0 (-1))).recon_1, (reconstruct (recon 127 127 1)).recon_1] = [44, 126, 127, -128] := by decide

/-- T1 call 4: the last symbol of a byte; no read, `pos` stays, nothing is left. -/
theorem test_deltaGet_last_symbol :
    (nextOf (deltaGet midT1)).map (fun t => (t.recon_1, t.modifier)) = some (12, -2) ∧
    (nextOf (deltaGet midT1)).map (fun t => (t.pos, t.sym_cnt, t.byte_buf, t.events)) = some (2, 0, 0x00, []) := by decide

/-- P4 block 1: a fetch of 6A, and its first symbol. -/
theorem test_deltaGet_fetches :
    (nextOf (deltaGet startP4)).map (fun t => (t.recon_1, t.pos, t.sym_cnt, t.byte_buf, t.events)) =
      some (1, 2, 3, 0x1A, [.sampleRead 0x0301 0x6A]) := by decide

/-- S1 and R102: a null base gives an inactive decoder, whose `DeltaGet` is refused. -/
theorem test_deltaGet_refused : refusalOf (deltaGet (deltaTrigger 0 5 State.reset)) = some .deltaGetInactive := by decide

/-- R110: the corner cases. -/
theorem test_average : [average 3 4 0, average 3 4 1, average (-3) (-4) 0, average (-1) 0 0, average 127 127 1,
    average (-128) (-128) 0, average 127 (-128) 1] = [3, 4, -4, -1, 127, -128, 0] := by decide

/-- R112: the full range under both dither words, and the worked example. -/
theorem test_lerp8 :
    (lerpPoints 127 (-128) 0x00).toList = [127, 95, 63, 31, -1, -33, -65, -97] ∧
    (lerpPoints 127 (-128) 0x7F).toList = [127, 96, 64, 32, 0, -32, -64, -96] ∧
    (lerpPoints 10 (-10) 0x55).toList = [10, 7, 5, 3, 0, -3, -5, -7] := by decide

/-- R114: the worked example. -/
theorem test_spline8 :
    (spline8 0 100 50 { State.reset with rng_in := [0x15, 0x2A, 0xA5] }).1.toList = [50, 53, 57, 59, 62, 66, 68, 72] := by
  decide

/-- 2.8: the worked example of R121, two wraps, and the vector that tells the two readings apart. -/
theorem test_filterGet :
    (filterGet 50 (filter (-96) 60 64 32 16 10 (-20) 300 (-200))).1 = 554 ∧
    (filterGet 0 (filter 127 0 0 0 0 0 0 32767 0)).1 = 514 ∧
    (filterGet 0 (filter 0 (-128) 0 0 0 0 0 0 (-32768))).1 = -32768 ∧
    (filterGet 0 (filter 64 0 0 0 0 0 0 1024 0)).1 = -1024 ∧
    (filterGet 0 { filter 64 0 0 0 0 0 0 1024 0 with cfg := { product := .productCutTo16 } }).1 = 0 := by decide

/-- 2.8: the history after the worked example. -/
theorem test_filter_history :
    (fun t : State => (t.xn_1, t.xn_2, t.yn_1, t.yn_2)) (filterGet 50 (filter (-96) 60 64 32 16 10 (-20) 300 (-200))).2 =
      (50, 10, 554, 300) := by decide

/-- 2.10: the amplitude and the scale. -/
theorem test_amplitude_and_scale :
    [amp8 255, amp8 256, amp8 0xFF00, amp8 0xFFFF, amp8 0x10000] = [0, 1, 255, 255, 255] ∧
    [trebleScale (-32768) 255, trebleScale 32767 255, trebleScale 104 255, trebleScale (-1) 1, trebleScale (-257) 1,
     trebleScale 1000 0] = [-32640, 32639, 103, -1, -2, 0] := by decide

/-- 2.11: the wrap of a slot. -/
theorem test_mixAdd :
    (mixAdd 0 32639 { State.reset with buf := #v[32767, 5, 0, 0, 0, 0, 0, 0] }).buf.toList = [-130, 5, 0, 0, 0, 0, 0, 0] ∧
    (mixAdd 1 (-32640) { State.reset with buf := #v[5, -32768, 0, 0, 0, 0, 0, 0] }).buf.toList = [5, 128, 0, 0, 0, 0, 0, 0] := by
  decide

/-! ### The commands -/

/-- P4's `TRIGGER`: from another voice, `BUF` and memory untouched. -/
theorem test_trigger : nextOf (exec (.trigger voiceP4)
    { midT1 with sample_mem := startP4.sample_mem, rng_in := startP4.rng_in, yn_1 := 5, bass_0 := 7 }) = some startP4 := by decide

/-- 2.12: a null base with a length and no amplitude, and the longest sample. -/
theorem test_trigger_corners :
    (nextOf (exec (.trigger { voiceP4 with initial := 0, increment := 0x1234, sampleBase := 0, sampleLen := 5 }) startP4)).map
      (fun t => (t.pos, t.end_pos, t.treble_amp, t.treble_step, idle t)) = some (0, 0, 0, 0x1234, true) ∧
    (nextOf (exec (.trigger { silentVoice with sampleBase := 0x0100, sampleLen := 0xFFFF }) startP4)).map
      (fun t => (t.pos, t.end_pos, bassActive t)) = some (1, 65536, true) := by decide

/-- P4 block 1: both layers. -/
theorem test_decodeBlock_both :
    (nextOf (exec .decodeBlock startP4)).map (fun t => (t.buf.toList, t.pos, t.sym_cnt, t.bass_0, t.bass_1, t.treble_amp)) =
      some ([15, 7, -26, -18, -21, 0, 26, 27], 2, 3, 1, 0, 8192) := by decide

/-- P2 block 1: the treble alone, eight draws, no read. -/
theorem test_decodeBlock_treble :
    (nextOf (exec .decodeBlock startP2)).map (fun t => (t.buf.toList, t.treble_amp, t.rng_count)) =
      some ([0, 0, -1, -1, -1, -1, -1, 0], 256, 8) ∧
    (nextOf (exec .decodeBlock startP2)).map (fun t => (t.xn_1, t.xn_2, t.yn_1, t.yn_2)) = some (-128, 127, 49, -21) := by decide

/-! ### Steps: the host's actions -/

/-- R70: a command presented on the port. -/
theorem test_step_command :
    nextOf (step { State.reset with host_in := [.command 0#1 0x0002030081007F60A620004000] }) =
      nextOf (exec (.trigger voiceP4) State.reset) := by decide

/-- R28, R53: a slot written, a slot read. -/
theorem test_step_slots :
    (nextOf (step { State.reset with host_in := [.writeSlot 7 (-3)] })).map (·.buf.toList) = some [0, 0, 0, 0, 0, 0, 0, -3] ∧
    (nextOf (step { State.reset with buf := #v[9, 0, 0, 0, 0, 0, 0, 0], host_in := [.readSlot 0] })).map (·.events) =
      some [.hostRead 0 9] := by decide

/-- R9, R63: on an inactive decoder the host may place any byte; addresses are taken modulo 65536 (log entry 28). -/
theorem test_step_writeSample :
    (nextOf (step { startP2 with sample_mem := [(1, 5)], host_in := [.writeSample 2 0x11] })).map (·.sample_mem) =
      some [(1, 5), (2, 0x11)] ∧
    (nextOf (step { startP2 with sample_mem := [(1, 5)], host_in := [.writeSample 65537 0] })).map (·.sample_mem) = some [] := by
  decide

/-- R63, R183 (c): of P4's active sample the bytes 0301 and 0302 may not be written, its header 0300 and the byte after it may;
and the same where a sample lies across the top of the address space (R52). -/
theorem test_step_writeSample_refused :
    ([0x0300, 0x0301, 0x0302, 0x0303].map fun a => refusalOf (step { startP4 with host_in := [.writeSample a 9] })) =
      [none, some .hostWriteToActiveSample, some .hostWriteToActiveSample, none] ∧
    ([65535, 0, 1].map fun a => refusalOf (step { startP4 with base := 65535, host_in := [.writeSample a 9] })) =
      [none, some .hostWriteToActiveSample, some .hostWriteToActiveSample] := by decide

/-- R64, R151 and program P1, block 1: the accesses of P4's first block with the treble off: the read, then the draw, then the
slots from 0 up. -/
theorem test_block_accesses :
    ((blockTrace { startP4 with treble_amp := 0 }).take 4) =
      [.sampleRead 0x0301 0x6A, .rngByte 0x7F, .bufPair 0 0 0, .bufPair 1 0 1] := by decide

/-- R180: reset in the middle of a voice; with a command the command is ignored. -/
theorem test_step_reset :
    (nextOf (step { startP4 with host_in := [.reset] })).map (fun t => (t.pos, t.end_pos, t.treble_amp, t.b1, idle t)) =
      some (0, 0, 0, 0, true) ∧
    nextOf (step { startP4 with host_in := [.resetWithCommand 1#1 0] }) = nextOf (step { startP4 with host_in := [.reset] }) := by decide

/-- R180: reset during a `TRIGGER`, and during a block on an idle core, leaves the slots. -/
theorem test_step_resetDuringCommand :
    (nextOf (step { startP4 with host_in := [.resetDuringCommand 0#1 0], buf := #v[1, 2, 3, 4, 5, 6, 7, 8] })).map
      (fun t => (t.buf.toList, t.pos)) = some ([1, 2, 3, 4, 5, 6, 7, 8], 0) ∧
    (nextOf (step { State.reset with host_in := [.resetDuringCommand 1#1 0], buf := #v[1, 2, 3, 4, 5, 6, 7, 8] })).map
      (fun t => t.buf.toList) = some [1, 2, 3, 4, 5, 6, 7, 8] := by decide

/-- Log entry 12: a placed command word and a placed symbol word run in the very next step after reset. -/
theorem test_withFetchWord :
    nextOf (step (State.reset.withFetchWord 1 0)) = nextOf (exec (.trigger silentVoice) State.reset) ∧
    nextOf (step (State.reset.withFetchWord 1 1)) = nextOf (exec .decodeBlock State.reset) ∧
    (State.reset.withFetchWord 2 3).host_in = [.command 1#1 0] ∧
    (nextOf (deltaGet (State.reset.withFetchWord 2 3))).map (·.modifier) = some (-1) := by decide

/-! ### Witnesses: for every obligation with hypotheses, states and operands that meet them -/

/-- StepRunsThePresentedCommand. -/
theorem witness_command : ({ State.reset with host_in := [.command 1#1 0] } : State).host_in = .command 1#1 0 :: [] := by decide
/-- PlacedTableWordRuns: both ends of each range. -/
theorem witness_placed : Memory.wf startP4.sample_mem ∧ 0 < 2 ∧ 1 < 2 ∧ 0 < 4 ∧ 3 < 4 := by decide
/-- NoHostActionNoChange. -/
theorem witness_no_action : State.reset.host_in = [] := by decide
/-- DeltaGetRunsTheExtractedSymbol: an inactive decoder at the bound, and an active one just below it. -/
theorem witness_deltaGet_clauses :
    ¬ ({ midT1 with pos := 4 } : State).pos.toNat < 4 ∧ ({ midT1 with pos := 3 } : State).pos.toNat < midT1.end_pos.toNat := by
  decide
/-- FetchStage: symbols left; none left with the cursor before the end, and at it. -/
theorem witness_fetch : midT1.sym_cnt ≠ 0 ∧ startP4.sym_cnt = 0 ∧ startP4.pos ≠ startP4.end_pos ∧
    State.reset.sym_cnt = 0 ∧ State.reset.pos = State.reset.end_pos := by decide
/-- ExtractStage: the count at 1 and at 4. -/
theorem witness_extract : 1 ≤ midT1.sym_cnt.toNat ∧ 1 ≤ (fetch startP4).sym_cnt.toNat ∧ (fetch startP4).sym_cnt = 4 := by decide
/-- DeltaGetAdvancesOneSymbol: with no symbol left, and with one. -/
theorem witness_advance : bassActive startP4 = true ∧ startP4.sym_cnt = 0 ∧ bassActive midT1 = true ∧ midT1.sym_cnt ≠ 0 := by decide
/-- SymbolsReconstruct and SymbolsChangeOnlyTheReconstruction: each symbol, and the next state it answers. -/
theorem witness_symbols : Instr.keep ∈ symbols ∧ Instr.neg ∈ symbols ∧ Instr.dbl ∈ symbols ∧ Instr.hlv ∈ symbols ∧
    nextOf (exec .hlv (recon 0 0 0)) = some (recon (-1) 0 (-1)) := by decide
/-- DeltaGetIsDeterministic: two states about to fetch the same byte that differ in another byte, the port and the filter; two
with a symbol left that differ in every byte; and an inactive pair, whose `DeltaGet` is refused. -/
theorem witness_deterministic :
    let s := startP4
    let s' := { startP4 with rng_in := [0xAA], yn_1 := 3, sample_mem := [(0x0301, 0x6A), (0x0302, 0x11)] }
    s' ≠ s ∧ s'.cfg = s.cfg ∧ s'.base = s.base ∧ s'.pos = s.pos ∧ s'.end_pos = s.end_pos ∧ s'.byte_buf = s.byte_buf ∧
    s'.sym_cnt = s.sym_cnt ∧ s'.recon_1 = s.recon_1 ∧ s'.recon_2 = s.recon_2 ∧ s'.modifier = s.modifier ∧ s.sym_cnt = 0 ∧
    s'.sample_mem.read (sampleAddress s) = s.sample_mem.read (sampleAddress s) ∧
    (nextOf (deltaGet s)).isSome = true ∧ (nextOf (deltaGet midT1)).isSome = true ∧ midT1.sym_cnt ≠ 0 ∧
    refusalOf (deltaGet State.reset) = some .deltaGetInactive := by decide
/-- AverageIsTheExactFloor: both values of the dither bit. -/
theorem witness_dither : ((0 : Int) = 0 ∨ (0 : Int) = 1) ∧ ((1 : Int) = 0 ∨ (1 : Int) = 1) := by decide
/-- FilterGetStep and FilterGetStepWithCutProducts: a core of each reading. -/
theorem witness_readings : startP4.cfg.product = .fullProduct ∧
    ({ startP4 with cfg := { product := .productCutTo16 } } : State).cfg.product = .productCutTo16 := by decide
/-- ProductReadingsAgreeOnSmallProducts: both ends of the input range and of the product range. -/
theorem witness_small_products : ByteRange (-128) ∧ ByteRange 127 ∧
    -32768 ≤ (1 : S8).toInt * (-32768 : S16).toInt ∧ (1 : S8).toInt * (-32768 : S16).toInt < 32768 ∧
    -32768 ≤ (1 : S8).toInt * (32767 : S16).toInt ∧ (1 : S8).toInt * (32767 : S16).toInt < 32768 := by decide
/-- ZeroCoefficientsGiveZero: zero coefficients with a history (2.8). -/
theorem witness_zero_coefficients :
    let s := filter 0 0 0 0 0 5 (-7) 1000 (-1000)
    s.a2 = 0 ∧ s.a3 = 0 ∧ s.b1 = 0 ∧ s.b2 = 0 ∧ s.b3 = 0 ∧ s.yn_1 ≠ 0 := by decide
/-- AmplitudeIsTheClampedIntegerPart: 1, the greatest value that is not clamped, and one that is. -/
theorem witness_amplitude : 0 < (1 : S32).toInt ∧ 0 < (65535 : S32).toInt ∧ (65535 : S32).toInt ≤ 65535 ∧
    0 < (65536 : S32).toInt := by decide
/-- TrebleScaleIsTheExactFloor: both ends of the amplitude. -/
theorem witness_scale : (0 : Int) ≤ 0 ∧ (0 : Int) ≤ 255 ∧ (255 : Int) ≤ 255 := by decide
/-- MixAddWraps: another slot. -/
theorem witness_other_slot : (7 : Fin 8) ≠ 0 := by decide
/-- TrebleDecaysLinearly: the least active amplitude, the greatest inactive one, and a negative one. -/
theorem witness_decay : 0 < ({ startP2 with treble_amp := 1 } : State).treble_amp.toInt ∧ State.reset.treble_amp.toInt ≤ 0 ∧
    ({ startP2 with treble_amp := -256 } : State).treble_amp.toInt ≤ 0 := by decide
/-- SubUnitAmplitudeStillRuns: both ends. -/
theorem witness_sub_unit : 0 < (1 : S32).toInt ∧ (1 : S32).toInt < 256 ∧ 0 < ({ startP2 with treble_amp := 255 } : State).treble_amp.toInt ∧
    ({ startP2 with treble_amp := 255 } : State).treble_amp.toInt < 256 := by decide
/-- MixingIsAdditive: two voices, each with a zeroed buffer. -/
theorem witness_two_voices : (∀ i : Fin 8, startP4.buf[i] = 0) ∧ (∀ i : Fin 8, startP2.buf[i] = 0) ∧ startP4 ≠ startP2 := by decide
/-- TriggerLoadsTheVoice, LifeOfAVoice, AmplitudeStaircase: the widest base, an empty sample, and an amplitude of 1. -/
theorem witness_voice : ({ voiceP4 with sampleBase := 65535 } : VoiceDef).fits {} = true ∧ EmptySample voiceP4 = false ∧
    silentVoice.fits {} = true ∧ EmptySample silentVoice = true ∧ 0 < ({ voiceP4 with initial := 1 } : VoiceDef).initial.toNat := by
  decide
/-- TriggerForgetsTheOldVoice: two states that differ in core registers only. -/
theorem witness_forget :
    let s := { startP4 with sample_mem := [], rng_in := [] }
    s ≠ State.reset ∧ s.cfg = State.reset.cfg ∧ s.buf = State.reset.buf ∧ s.sample_mem = State.reset.sample_mem ∧
    s.events = State.reset.events ∧ s.host_in = State.reset.host_in ∧ s.rng_in = State.reset.rng_in ∧
    s.rng_count = State.reset.rng_count ∧ s.free_count = State.reset.free_count := by decide
/-- TriggerTouchesRegistersOnly, NoInstructionWritesSampleMemory: an instruction that answers a next state. -/
theorem witness_trigger_next : ∃ t, exec (.trigger voiceP4) startP2 = .next t := ⟨_, rfl⟩
/-- DecodeBlockAdvancesTheActiveLayers: both layers active. -/
theorem witness_both_active : bassActive startP4 = true ∧ trebleActive startP4 = true := by decide
/-- DecodeBlockFrame, DecodeBlockOnlyClearsStatus: a block that answers a next state; and the layers inactive one by one. -/
theorem witness_block_next : (nextOf (exec .decodeBlock startP4)).isSome = true ∧ bassActive startP2 = false ∧
    trebleActive midT1 = false ∧
    (nextOf (exec .decodeBlock startP4)).map (fun t => (bassActive t, trebleActive t)) = some (true, true) := by decide
/-- IdleBlockIsANoOp: reset, and a voice run out. -/
theorem witness_idle : idle State.reset = true ∧ idle { startP4 with pos := 3, treble_amp := -256 } = true := by decide
/-- OnlyTriggerLeavesIdle: an idle core, whose host presents a block, and the next state. -/
theorem witness_not_trigger :
    let s := { State.reset with host_in := [.command 1#1 0] }
    NextIsNotTrigger s ∧ idle s = true ∧ bassActive s = false ∧ trebleActive s = false ∧ nextOf (step s) = some State.reset :=
  ⟨fun _ _ h => by injection h with h _; injection h with h _; exact absurd h (by decide), by decide, by decide, by decide,
   by decide⟩
/-- The invariant in the middle of a voice whose sample ends at the top of the address space. -/
theorem inv_startP4 : Inv { startP4 with end_pos := 65536 } where
  pos_le := by decide
  end_le := by decide
  pos_pos := by decide
  sym_le := by decide
  buf_lt := by decide
  xn_1_range := by decide
  xn_2_range := by decide
  amp_ge := by decide
  amp_le := by decide
  base_lt := by decide
  null_empty := by decide
  mem_wf := by decide
/-- HeaderByteHasNoEffect: the invariant with the longest sample. -/
theorem witness_header : Inv { startP4 with end_pos := 65536 } ∧
    ({ startP4 with end_pos := 65536 } : State).end_pos.toNat ≤ 2 ^ startP4.cfg.addrW := ⟨inv_startP4, by decide⟩
/-- `ActiveSampleByte` at the ends of its range: the first and the last data byte of P4's sample, not its header, not the byte
after it. -/
theorem witness_active_byte : ActiveSampleByte startP4 0x0301 ∧ ActiveSampleByte startP4 0x0302 ∧
    ¬ ActiveSampleByte startP4 0x0300 ∧ ¬ ActiveSampleByte startP4 0x0303 := by
  refine ⟨?_, ?_, ?_, ?_⟩ <;> rw [← activeSampleByte_iff startP4 (by decide)] <;> decide
/-- HostWriteIsSeenByLaterFetches, OnlyAWriteToAnActiveSampleStops: a write to an active sample's byte; a write to another byte,
with a third address; and a later state about to fetch the byte written. -/
theorem witness_host_write : Memory.wf startP4.sample_mem ∧
    WritesActiveSample { startP4 with host_in := [.writeSample 0x10301 7] } ∧
    ¬ WritesActiveSample { startP4 with host_in := [.writeSample 0x0303 7] } ∧
    0x0301 ≠ 0x0303 % 2 ^ startP4.cfg.addrW ∧
    (let u := { startP4 with base := 0x0302, sample_mem := [(0x0301, 0x6A), (0x0302, 0xFC), (0x0303, 7)] }
     (nextOf (step { startP4 with host_in := [.writeSample 0x0303 7] })).map (·.sample_mem) = some u.sample_mem ∧
     u.sym_cnt = 0 ∧ u.pos ≠ u.end_pos ∧ sampleAddress u = 0x0303 % 2 ^ startP4.cfg.addrW ∧ (fetch u).byte_buf = 7) := by
  refine ⟨by decide, ⟨_, _, _, rfl, ?_⟩, ?_, by decide, by decide⟩
  · exact (activeSampleByte_iff _ (by decide)).1 (by decide)
  · rintro ⟨a, b, rest, h, h'⟩
    injection h with h _
    injection h with h _
    subst h
    exact absurd ((activeSampleByte_iff _ (by decide)).2 h') (by decide)
/-- HostAccessesOneSlot. -/
theorem witness_host_slots :
    ({ startP4 with host_in := [.writeSlot 7 1] } : State).host_in = .writeSlot 7 1 :: [] ∧
    ({ startP4 with host_in := [.readSlot 0] } : State).host_in = .readSlot 0 :: [] := by decide
/-- RstZeroesTheRegisters: both forms. -/
theorem witness_rst :
    ({ startP4 with host_in := [.reset] } : State).host_in = .reset :: [] ∧
    ({ startP4 with host_in := [.resetWithCommand 0#1 5] } : State).host_in = .resetWithCommand 0#1 5 :: [] := by decide
/-- RstDuringACommandAbandonsIt: a block on an active core; a `TRIGGER`; a block on an idle core. -/
theorem witness_rst_during :
    ({ startP4 with host_in := [.resetDuringCommand 1#1 0] } : State).host_in = .resetDuringCommand 1#1 0 :: [] ∧
    ({ startP4 with host_in := [.resetDuringCommand 0#1 0] } : State).host_in = .resetDuringCommand 0#1 0 :: [] ∧
    idle { State.reset with host_in := [.resetDuringCommand 1#1 0] } = true ∧ idle startP4 = false ∧
    ((bassEvents startP4 ++ trebleEvents startP4).take 3).all (fun e => !addsInto 1 e) = true ∧
    ((bassEvents startP4 ++ trebleEvents startP4).take 3).any (addsInto 0) = true := by decide
/-- EveryStepKeepsInv: the invariant in the middle of a voice, and a step that answers a next state. -/
theorem witness_step_keeps : Inv { startP4 with end_pos := 65536 } ∧
    ∃ t, step { startP4 with end_pos := 65536 } = .next t := ⟨inv_startP4, _, rfl⟩

end Sys2Proof.Tests
end

section
/-! SUPPORT. The decoders of 30_encoding.md: each pair of bits of a data byte as a number (R72), what the decoder of written
instructions answers on each format, and that its answer is well-formed (R79). -/

namespace Sys2Proof

/-! ### A data byte's four symbols -/

theorem symbolCode_toNat (b : U8) (k : Nat) : (symbolCode b k).toNat = b.toNat / 4 ^ k % 4 := by
  simp [symbolCode, Nat.shiftRight_eq_div_pow, pow_mul]

/-- R72: the sum of R72 fits a byte, so the conversion to a byte loses nothing. -/
theorem toNat_packedByte (s0 s1 s2 s3 : BitVec 2) :
    (BitVec.ofNat 8 (s0.toNat + 4 * s1.toNat + 16 * s2.toNat + 64 * s3.toNat)).toNat =
      s0.toNat + 4 * s1.toNat + 16 * s2.toNat + 64 * s3.toNat := by
  rw [BitVec.toNat_ofNat]
  omega

/-- A byte that has the value of R72's sum has the four codes in its pairs, the first in the lowest. -/
theorem symbolCodes_of_toNat {b : U8} {s0 s1 s2 s3 : BitVec 2}
    (h : b.toNat = s0.toNat + 4 * s1.toNat + 16 * s2.toNat + 64 * s3.toNat) :
    symbolCode b 0 = s0 ∧ symbolCode b 1 = s1 ∧ symbolCode b 2 = s2 ∧ symbolCode b 3 = s3 := by
  refine ⟨?_, ?_, ?_, ?_⟩ <;> apply BitVec.eq_of_toNat_eq <;> rw [symbolCode_toNat, h] <;> omega

/-- Settles O4: the byte has the value of the sum, and the sum's base-4 digits are the codes. -/
theorem dataByteHoldsFourSymbols : Obligations.DataByteHoldsFourSymbols := by
  refine ⟨fun s0 s1 s2 s3 => ?_, by decide⟩
  obtain ⟨h0, h1, h2, h3⟩ := symbolCodes_of_toNat (toNat_packedByte s0 s1 s2 s3)
  rw [decodeSymbolByte, h0, h1, h2, h3]

/-! ### Every encoding is legal -/

/-- R73: every symbol code is decoded. -/
theorem decode_sym2 (cfg : Config) {code : Nat} (h : code < 4) :
    decode cfg { format := .sym2, code := code, operand := 0 } = .ok (decodeSymbol (BitVec.ofNat 2 code)).toInstr := by
  have hcode : ¬ 2 ^ 2 ≤ code := Nat.not_le.2 h
  simp only [decode, if_neg hcode, ne_eq, not_true_eq_false, if_false]

/-- R70, R71: every command code is decoded, with every record of the port's width. -/
theorem decode_cmd (cfg : Config) {code operand : Nat} (h : code < 2) (ho : operand < 2 ^ operandWidth cfg.addrW) :
    decode cfg { format := .cmd, code := code, operand := operand } =
      .ok (decodeCommand cfg.addrW (BitVec.ofNat 1 code) operand) := by
  have hcode : ¬ 2 ^ 1 ≤ code := Nat.not_le.2 h
  simp only [decode, if_neg hcode, if_neg (Nat.not_le.2 ho)]

theorem DeltaSymbol.toInstr_wellFormed (cfg : Config) (d : DeltaSymbol) : d.toInstr.wellFormed cfg = true := by
  cases d <;> rfl

/-- The decoded `sample_base` is cut from `ADDR_W` lines of the record (R71). -/
theorem decodeVoiceDef_fits (cfg : Config) (record : Nat) : (decodeVoiceDef cfg.addrW record).fits cfg = true :=
  decide_eq_true (Nat.mod_lt _ (Nat.two_pow_pos cfg.addrW))

theorem decodeCommand_wellFormed (cfg : Config) (cmd : BitVec 1) (operand : Nat) :
    (decodeCommand cfg.addrW cmd operand).wellFormed cfg = true := by
  unfold decodeCommand
  split
  · exact decodeVoiceDef_fits cfg operand
  · rfl

/-- Settles O5: the decoder answers on every code of its format, and what it answers is well-formed. -/
theorem noIllegalEncoding : Obligations.NoIllegalEncoding := fun cfg =>
  ⟨fun _ hcode => ⟨_, decode_sym2 cfg hcode, DeltaSymbol.toInstr_wellFormed cfg _⟩,
    fun _ hcode _ ho => ⟨_, decode_cmd cfg hcode ho, decodeCommand_wellFormed cfg _ _⟩⟩

end Sys2Proof
end

section
/-! SUPPORT. The delta decoder (40_delta_decoder.md): what each symbol leaves in `modifier` (R96 to R99) and that it
reconstructs (R100), the fetch and extract stages register by register (R94, R95), and what the state after `DeltaGet`
depends on (R93, R104). -/

namespace Sys2Proof.Machine

open Sys2Proof.Safety

/-! ### The symbols (R96 to R100) -/

theorem reconstructed_reconstruct (s : State) (m : S8) : Reconstructed s (reconstruct { s with modifier := m }) :=
  ⟨by simp only [reconstruct_recon_1, reconstruct_modifier, wrapS_8_toInt], rfl, rfl⟩

/-- Every symbol completes with its effect on `modifier`, and reconstructs with it. -/
theorem exec_toInstr_reconstructs (d : DeltaSymbol) (s : State) :
    ∃ t, exec d.toInstr s = .next t ∧ t.modifier = symbolModifier d s.modifier ∧ Reconstructed s t :=
  ⟨_, (exec_toInstr d s).trans (execSymbol_eq d s), reconstruct_modifier _, reconstructed_reconstruct s _⟩

theorem mem_symbols_iff (i : Instr) : i ∈ symbols ↔ ∃ d : DeltaSymbol, d.toInstr = i := by
  constructor
  · intro h
    simp only [symbols, List.mem_cons, List.not_mem_nil, or_false] at h
    obtain rfl | rfl | rfl | rfl := h
    exacts [⟨.keep, rfl⟩, ⟨.neg, rfl⟩, ⟨.dbl, rfl⟩, ⟨.hlv, rfl⟩]
  · rintro ⟨d, rfl⟩
    cases d <;> simp [symbols, DeltaSymbol.toInstr]

/-- R97: the negative of -128 wraps back to it; every other negative fits. -/
theorem symbolModifier_neg_toInt (m : S8) :
    (symbolModifier .neg m).toInt = if m.toInt = -128 then -128 else -m.toInt := by
  have hm := s8_range m
  rw [symbolModifier, wrapS_8_toInt, zero_sub]
  split
  next h => rw [h]; rfl
  next h => exact signed8_of_range (by omega)

theorem s8_eq_zero_iff (m : S8) : m = 0 ↔ m.toInt = 0 := BitVec.toInt_inj.symm

/-- R98, with the zero-escape to 1. -/
theorem symbolModifier_dbl_toInt (m : S8) :
    (symbolModifier .dbl m).toInt = if m.toInt = 0 then 1 else signed8 (2 * m.toInt) := by
  simp only [symbolModifier, s8_eq_zero_iff]
  split
  · rfl
  · rw [wrapS_8_toInt, Int.mul_comm]

/-- R99, with the zero-escape to -1: half of a signed byte fits one, so nothing wraps. -/
theorem symbolModifier_hlv_toInt (m : S8) :
    (symbolModifier .hlv m).toInt = if m.toInt = 0 then -1 else m.toInt / 2 := by
  have hm := s8_range m
  simp only [symbolModifier, s8_eq_zero_iff]
  split
  · rfl
  · rw [wrapS_8_toInt, asr, pow_one, signed8_of_range (by omega)]

/-- Settles O14: each of the four is a `DeltaSymbol`'s instruction, and those reconstruct. -/
theorem symbolsReconstruct : Obligations.SymbolsReconstruct := by
  intro i hi s
  obtain ⟨d, rfl⟩ := (mem_symbols_iff i).1 hi
  obtain ⟨t, ht, -, hrec⟩ := exec_toInstr_reconstructs d s
  exact ⟨t, ht, hrec⟩

/-- Settles O15: the effect of `KEEP` on `modifier` is the identity. -/
theorem keepLeavesModifier : Obligations.KeepLeavesModifier :=
  exec_toInstr_reconstructs .keep

/-- Settles O16: the wrap of the negative differs from it at -128 only. -/
theorem negNegatesModifier : Obligations.NegNegatesModifier := by
  intro s
  obtain ⟨t, ht, hm, hrec⟩ := exec_toInstr_reconstructs .neg s
  exact ⟨t, ht, hrec, by rw [hm, symbolModifier_neg_toInt]⟩

/-- Settles O17: a `modifier` of 0 is the byte 0, so the zero-escapes agree. -/
theorem dblDoublesModifier : Obligations.DblDoublesModifier := by
  intro s
  obtain ⟨t, ht, hm, hrec⟩ := exec_toInstr_reconstructs .dbl s
  exact ⟨t, ht, hrec, by rw [hm, symbolModifier_dbl_toInt]⟩

/-- Settles O18: the floor of half of `modifier` fits a signed byte, so the wrap changes nothing. -/
theorem hlvHalvesModifier : Obligations.HlvHalvesModifier := by
  intro s
  obtain ⟨t, ht, hm, hrec⟩ := exec_toInstr_reconstructs .hlv s
  exact ⟨t, ht, hrec, by rw [hm, symbolModifier_hlv_toInt]⟩

/-! ### The fetch stage (R94) -/

theorem fetch_of_no_symbols {s : State} (h : s.sym_cnt = 0) :
    fetch s = { (fetchByte s).2 with byte_buf := (fetchByte s).1, pos := s.pos + 1, sym_cnt := 4 } := by
  unfold fetch; rw [if_pos h]

theorem fetchByte_at_end {s : State} (h : s.pos = s.end_pos) : fetchByte s = (0, s) := by
  unfold fetchByte; rw [if_pos h]

theorem fetchByte_before_end {s : State} (h : s.pos ≠ s.end_pos) :
    fetchByte s = sampleRead (sampleAddress s) s := by
  unfold fetchByte; rw [if_neg h]

/-- Settles O11: by whether a symbol is left, and whether the cursor stands at the end. -/
theorem fetchStage : Obligations.FetchStage := by
  refine fun s => ⟨fetch_of_symbols, fun h0 => ?_⟩
  rw [fetch_of_no_symbols h0]
  by_cases hend : s.pos = s.end_pos
  · simp only [fetchByte_at_end hend, if_pos hend, List.append_nil]
  · simp only [fetchByte_before_end hend, if_neg hend]
    rfl

/-! ### The extract stage (R95) -/

theorem lsr_two_toNat (b : U8) : (lsr b 2).toNat = b.toNat / 4 := by
  rw [lsr, BitVec.toNat_ushiftRight, Nat.shiftRight_eq_div_pow]

theorem symbolCode_zero (b : U8) : symbolCode b 0 = BitVec.ofNat 2 (b.toNat % 4) := by
  apply BitVec.eq_of_toNat_eq
  rw [symbolCode_toNat, BitVec.toNat_ofNat]
  omega

/-- The shift by one symbol moves every later symbol down by one place. -/
theorem symbolCode_lsr_two (b : U8) (k : Nat) : symbolCode (lsr b 2) k = symbolCode b (k + 1) := by
  apply BitVec.eq_of_toNat_eq
  rw [symbolCode_toNat, symbolCode_toNat, lsr_two_toNat, Nat.div_div_eq_div_mul, ← Nat.pow_succ']

/-- Four shifts by two bits leave nothing of a byte. -/
theorem lsr_two_four_times (b : U8) : lsr (lsr (lsr (lsr b 2) 2) 2) 2 = 0 := by
  apply BitVec.eq_of_toNat_eq
  simp only [lsr_two_toNat, BitVec.ofNat_eq_ofNat, BitVec.toNat_ofNat]
  omega

/-- Settles O12: as numbers the shift divides by 4, and it brings symbol `k + 1` to place `k`. -/
theorem extractStage : Obligations.ExtractStage := by
  intro s
  refine ⟨fun h => ?_, lsr_two_toNat s.byte_buf, rfl, ?_, lsr_two_four_times s.byte_buf, ?_⟩
  · rw [extract_sym_cnt]
    bv_omega
  · rw [currentSymbol, symbolCode_zero]
  · simp only [decodeSymbolByte, currentSymbol, extract_byte_buf, symbolCode_lsr_two]

/-! ### DeltaGet (R93, R104) -/

/-- Settles O10: the symbol `DeltaGet` runs has its instruction's meaning, and every symbol completes. -/
theorem deltaGetRunsTheExtractedSymbol : Obligations.DeltaGetRunsTheExtractedSymbol := by
  intro s
  rw [← bassActive_iff]
  refine ⟨fun h => deltaGet_inactive (Bool.eq_false_iff.2 h), fun h => ⟨?_, afterGet s, deltaGet_active h⟩⟩
  rw [exec_toInstr, deltaGet, if_pos h]
  rfl

theorem fetch_pos (s : State) : (fetch s).pos = if s.sym_cnt = 0 then s.pos + 1 else s.pos := by
  unfold fetch; split <;> rfl

theorem fetch_sym_cnt (s : State) : (fetch s).sym_cnt = if s.sym_cnt = 0 then 4 else s.sym_cnt := by
  unfold fetch; split <;> rfl

theorem fetch_byte_buf {s : State} (ha : bassActive s = true) :
    (fetch s).byte_buf = if s.sym_cnt = 0 then s.sample_mem.read (sampleAddress s) else s.byte_buf := by
  split
  next h => rw [fetch_of_empty ha h]
  next h => rw [fetch_of_symbols h]

@[simp] theorem afterGet_modifier (s : State) :
    (afterGet s).modifier = symbolModifier (currentSymbol (fetch s)) s.modifier := by
  simp [afterGet]

@[simp] theorem afterGet_recon_2 (s : State) : (afterGet s).recon_2 = s.recon_1 := by simp [afterGet]

@[simp] theorem afterGet_recon_1 (s : State) : (afterGet s).recon_1 =
    wrapS 8 ((wrapS 8 (2 * s.recon_1.toInt - s.recon_2.toInt)).toInt + (afterGet s).modifier.toInt) := by
  simp [afterGet]

/-- The decoder's registers in two states agree (R22). -/
structure DecoderAgrees (s t : State) : Prop where
  base     : t.base = s.base
  pos      : t.pos = s.pos
  end_pos  : t.end_pos = s.end_pos
  byte_buf : t.byte_buf = s.byte_buf
  sym_cnt  : t.sym_cnt = s.sym_cnt
  recon_1  : t.recon_1 = s.recon_1
  recon_2  : t.recon_2 = s.recon_2
  modifier : t.modifier = s.modifier

theorem DecoderAgrees.bassActive_eq {s t : State} (h : DecoderAgrees s t) : bassActive t = bassActive s := by
  rw [bassActive, bassActive, h.pos, h.end_pos]

theorem DecoderAgrees.sampleAddress_eq {s t : State} (h : DecoderAgrees s t) (hcfg : t.cfg = s.cfg) :
    sampleAddress t = sampleAddress s := by
  rw [sampleAddress, sampleAddress, h.base, h.pos, hcfg]

/-- On an active decoder the byte buffer after the fetch comes from the decoder's registers and the one byte read. -/
theorem DecoderAgrees.fetch_byte_buf_eq {s t : State} (h : DecoderAgrees s t) (hcfg : t.cfg = s.cfg)
    (hread : s.sym_cnt = 0 → t.sample_mem.read (sampleAddress s) = s.sample_mem.read (sampleAddress s))
    (ha : bassActive s = true) : (fetch t).byte_buf = (fetch s).byte_buf := by
  rw [fetch_byte_buf ha, fetch_byte_buf (h.bassActive_eq.trans ha), h.sampleAddress_eq hcfg, h.sym_cnt, h.byte_buf]
  split
  next h0 => exact hread h0
  next => rfl

/-- R104: the decoder's registers after `DeltaGet` depend on those before it, the parameters and the byte read. -/
theorem DecoderAgrees.after_deltaGet {s t : State} (h : DecoderAgrees s t) (hcfg : t.cfg = s.cfg)
    (hread : s.sym_cnt = 0 → t.sample_mem.read (sampleAddress s) = s.sample_mem.read (sampleAddress s))
    (ha : bassActive s = true) : DecoderAgrees (afterGet s) (afterGet t) := by
  have hbuf := h.fetch_byte_buf_eq hcfg hread ha
  have hmod : (afterGet t).modifier = (afterGet s).modifier := by
    rw [afterGet_modifier, afterGet_modifier, currentSymbol, currentSymbol, hbuf, h.modifier]
  exact {
    base := by rw [afterGet_base, afterGet_base, h.base]
    pos := by rw [afterGet_pos, afterGet_pos, fetch_pos, fetch_pos, h.sym_cnt, h.pos]
    end_pos := by rw [afterGet_end_pos, afterGet_end_pos, h.end_pos]
    byte_buf := by rw [afterGet_byte_buf, afterGet_byte_buf, hbuf]
    sym_cnt := by rw [afterGet_sym_cnt, afterGet_sym_cnt, fetch_sym_cnt, fetch_sym_cnt, h.sym_cnt]
    recon_1 := by rw [afterGet_recon_1, afterGet_recon_1, hmod, h.recon_1, h.recon_2]
    recon_2 := by rw [afterGet_recon_2, afterGet_recon_2, h.recon_1]
    modifier := hmod }

/-- Settles O20: both decoders are active or neither is, and what an active one holds after `DeltaGet` depends on what
agrees. -/
theorem deltaGetIsDeterministic : Obligations.DeltaGetIsDeterministic := by
  intro s s' hcfg hbase hpos hend hbuf hcnt hr1 hr2 hmod hread
  have hag : DecoderAgrees s s' := ⟨hbase, hpos, hend, hbuf, hcnt, hr1, hr2, hmod⟩
  cases ha : bassActive s with
  | false =>
    rw [deltaGet_inactive ha, deltaGet_inactive (hag.bassActive_eq.trans ha)]
    exact ⟨fun _ h => h, nofun⟩
  | true =>
    rw [deltaGet_active ha, deltaGet_active (hag.bassActive_eq.trans ha)]
    refine ⟨nofun, fun t ht => ?_⟩
    obtain rfl := Host.Outcome.next.inj ht
    obtain ⟨ebase, epos, eend, ebuf, ecnt, er1, er2, emod⟩ := hag.after_deltaGet hcfg hread ha
    exact ⟨_, rfl, ebase, epos, eend, ebuf, ecnt, er1, er2, emod,
      afterGet_rng_in s, afterGet_rng_count s, afterGet_rng_in s', afterGet_rng_count s'⟩

end Sys2Proof.Machine
end

section
/-! SUPPORT. The interpolator (41_interpolator.md): what `average` answers (R110), a draw of the port as one equation (R56),
and `Lerp8` and `Spline8` as their points under the draws they take (R112, R114). -/

namespace Sys2Proof.Machine

open Sys2Proof.Safety

/-! ### The average (R110) -/

theorem average_self (a : S8) {d : Int} (hd : d = 0 ∨ d = 1) : average a a d = a := by
  apply BitVec.eq_of_toInt_eq
  rw [average_toInt a a hd]
  omega

theorem average_comm (a b : S8) (d : Int) : average a b d = average b a d := by
  rw [average, average, Int.add_comm a.toInt]

/-- `average_toInt` on a bit of a dither word. -/
theorem average_ditherBit_toInt (a b : S8) (w : U8) (j : Nat) :
    (average a b (ditherBit w j)).toInt = (a.toInt + b.toInt + ditherBit w j) / 2 :=
  average_toInt a b (ditherBit_cases w j)

/-- Settles O22: the exact sum fits, and both operands enter it alike. -/
theorem averageIsTheExactFloor : Obligations.AverageIsTheExactFloor := fun a b d hd =>
  ⟨average_toInt a b hd, average_self a hd, average_comm a b d⟩

/-! ### A draw of the port (R56) -/

theorem rngByte_eq (s : State) : rngByte s = (drawAt s 0, { s with
    rng_in := s.rng_in.tail, rng_count := s.rng_count + 1, events := s.events ++ [.rngByte (drawAt s 0)] }) := by
  rw [← nextDraw_eq]
  rfl

/-- A draw moves every later one forward by one. -/
theorem drawAt_rngByte (s : State) (k : Nat) : drawAt (rngByte s).2 k = drawAt s (k + 1) :=
  drawAt_after (rngByte_rng_in s) (rngByte_rng_count s) k

/-! ### `Lerp8` (R112) -/

theorem lerp8_eq (start stop : S8) (s : State) :
    lerp8 start stop s = (lerpPoints start stop (drawAt s 0), (rngByte s).2) := by
  rw [← nextDraw_eq]
  rfl

/-- Settles O23: the one draw is the dither word, and each of the seven points is the `average` of its two neighbours under
its own bit. -/
theorem lerp8Bisects : Obligations.Lerp8Bisects := by
  intro start stop s
  rw [lerp8_eq, rngByte_eq]
  exact ⟨rfl, average_ditherBit_toInt _ _ _ 0, average_ditherBit_toInt _ _ _ 1, average_ditherBit_toInt _ _ _ 2,
    average_ditherBit_toInt _ _ _ 3, average_ditherBit_toInt _ _ _ 4, average_ditherBit_toInt _ _ _ 5,
    average_ditherBit_toInt _ _ _ 6, rfl⟩

/-! ### `Spline8` (R114) -/

theorem splinePoints_get (a b : Vector S8 8) (w : U8) (i : Fin 8) :
    (splinePoints a b w)[i] = average a[i] b[i] (ditherBit w i) := by
  fin_cases i <;> rfl

/-- The first ramp takes draw 0, the second draw 1, the pointwise stage draw 2. -/
theorem spline8_eq (p0 p1 p2 : S8) (s : State) : spline8 p0 p1 p2 s =
    (splinePoints (lerpPoints p0 p1 (drawAt s 0)) (lerpPoints p1 p2 (drawAt s 1)) (drawAt s 2),
      (rngByte (rngByte (rngByte s).2).2).2) := by
  have hthird : (rngByte (rngByte (rngByte s).2).2).1 = drawAt s 2 := by
    rw [rngByte_eq, drawAt_rngByte, drawAt_rngByte]
  rw [spline8, lerp8_eq, lerp8_eq, hthird, drawAt_rngByte]

theorem rngByte_thrice (s : State) : (rngByte (rngByte (rngByte s).2).2).2 = { s with
    rng_in := s.rng_in.drop 3, rng_count := s.rng_count + 3
    events := s.events ++ [.rngByte (drawAt s 0), .rngByte (drawAt s 1), .rngByte (drawAt s 2)] } := by
  have htail : s.rng_in.tail.tail.tail = s.rng_in.drop 3 := by
    rw [← List.drop_one (l := s.rng_in), List.tail_drop, List.tail_drop]
  rw [rngByte_eq (rngByte (rngByte s).2).2, drawAt_rngByte, drawAt_rngByte, rngByte_eq (rngByte s).2, drawAt_rngByte,
    rngByte_eq s]
  simp [htail]

/-- Settles O25: each point is the `average` of the two ramps' points under its own bit of the third draw. -/
theorem spline8AveragesTwoRamps : Obligations.Spline8AveragesTwoRamps := by
  intro p0 p1 p2 s
  rw [spline8_eq]
  refine ⟨fun i => ?_, rngByte_thrice s⟩
  rw [splinePoints_get]
  exact average_ditherBit_toInt _ _ _ i

end Sys2Proof.Machine
end

section
/-! SUPPORT. The tone filter (42_tone_filter.md): `FilterInit`'s state (R120), a term of the sum under the spec's reading of
the product (R122), and the wrapped sum and the moved history of `FilterGet` (R121). -/

namespace Sys2Proof.Machine

open Sys2Proof.Safety

/-! ### `FilterInit` (R120) -/

/-- Settles O26: the obligation asks for the record update by which the model defines `filterInit`. -/
theorem filterInitStoresAndZeroes : Obligations.FilterInitStoresAndZeroes :=
  fun _ _ _ _ _ _ => rfl

/-! ### `FilterGet` (R121) -/

theorem filterGet_fst (x : S16) (s : State) : (filterGet x s).1 = filterOutput x s := rfl

theorem filterGet_snd (x : S16) (s : State) : (filterGet x s).2 =
    { s with xn_2 := s.xn_1, xn_1 := x, yn_2 := s.yn_1, yn_1 := filterOutput x s } := rfl

/-- R122, the spec's reading: the shift divides the exact product and rounds down (R13). -/
theorem filterTerm_fullProduct (c : S8) (x : S16) (k : Nat) :
    filterTerm .fullProduct c x k = c.toInt * x.toInt / 2 ^ k := rfl

/-- The one wrap of the filter is that of the sum (R123), under either reading of the product. -/
theorem filterOutput_toInt (x : S16) (s : State) : (filterOutput x s).toInt =
    signed16 (filterTerm s.cfg.product s.b1 x 8 + filterTerm s.cfg.product s.b2 s.xn_1 8
      + filterTerm s.cfg.product s.b3 s.xn_2 7 - filterTerm s.cfg.product s.a2 s.yn_1 6
      - filterTerm s.cfg.product s.a3 s.yn_2 7) :=
  wrapS_16_toInt _

/-- Settles O27: under the spec's reading each term of the wrapped sum is an exact product's floor. -/
theorem filterGetStep : Obligations.FilterGetStep := by
  intro x s hfull
  refine ⟨?_, filterGet_snd x s⟩
  rw [filterGet_fst, filterOutput_toInt, hfull]
  simp only [filterTerm_fullProduct]
  norm_num

end Sys2Proof.Machine
end

section
/-! SUPPORT. The envelope and the mixer (43_envelope_and_mixer.md): the range of a scaled filter output (R134), and the slot
`MixAdd` adds to beside those it leaves (R139). -/

namespace Sys2Proof.Machine

open Sys2Proof.Safety

/-! ### `TrebleScale` (R134) -/

/-- The bounds are the floors at the two ends of the filter output under the greatest amplitude. -/
theorem trebleScale_range (y : S16) {amp : Int} (ha : 0 ≤ amp ∧ amp ≤ 255) :
    -32640 ≤ (trebleScale y amp).toInt ∧ (trebleScale y amp).toInt ≤ 32639 := by
  have hy := s16_range y
  have hlow : -32768 * 255 ≤ y.toInt * amp := by nlinarith
  have hhigh : y.toInt * amp ≤ 32767 * 255 := by nlinarith
  rw [trebleScale_toInt y ha]
  omega

/-- Settles O32: the shifted product fits 16 bits, so the one wrap of the scaling never acts. -/
theorem trebleScaleIsTheExactFloor : Obligations.TrebleScaleIsTheExactFloor := fun y _ hlow hhigh =>
  ⟨trebleScale_toInt y ⟨hlow, hhigh⟩, trebleScale_range y ⟨hlow, hhigh⟩⟩

/-! ### `MixAdd` (R139) -/

theorem mixAdd_get_same (i : Fin 8) (v : S16) (s : State) : (mixAdd i v s).buf[i] = s.buf[i] + v := by
  rw [mixAdd_get, if_pos rfl]

theorem mixAdd_get_of_ne {i j : Fin 8} (h : j ≠ i) (v : S16) (s : State) : (mixAdd i v s).buf[j] = s.buf[j] := by
  rw [mixAdd_get, if_neg h]

/-- The sum of bit patterns is the wrapped integer sum (R12). -/
theorem mixAdd_get_same_toInt (i : Fin 8) (v : S16) (s : State) :
    (mixAdd i v s).buf[i].toInt = signed16 (s.buf[i].toInt + v.toInt) := by
  rw [mixAdd_get_same, ← wrapS_16_add, wrapS_16_toInt]

/-- Settles O33: the slot takes the wrapped sum, and the recorded pair holds that slot before and after. -/
theorem mixAddWraps : Obligations.MixAddWraps := by
  intro i v s
  refine ⟨mixAdd_get_same_toInt i v s, fun j hj => mixAdd_get_of_ne hj v s, ?_⟩
  show mixAdd i v s = { s with
    buf := (mixAdd i v s).buf, events := s.events ++ [.bufPair i s.buf[i] (mixAdd i v s).buf[i]] }
  rw [mixAdd_get_same, mixAdd_eq]

end Sys2Proof.Machine
end

section
/-! SUPPORT. The voice renderer (44_voice_renderer.md): what a well-formed operand of `TRIGGER` means to the decoder (R90,
R91), the state it loads (R145), and the status values there (R29). -/

namespace Sys2Proof.Machine

open Sys2Proof.Safety

/-! ### A well-formed operand (R90, R91) -/

/-- A `sample_base` that fits the `ADDR_W` lines is carried unchanged. -/
theorem boundBase_of_fits {cfg : Config} {vd : VoiceDef} (h : vd.fits cfg = true) :
    boundBase cfg vd.sampleBase = vd.sampleBase :=
  Nat.mod_eq_of_lt (of_decide_eq_true h)

theorem emptySample_of_fits {cfg : Config} {vd : VoiceDef} (h : vd.fits cfg = true) :
    emptySample cfg vd.sampleBase vd.sampleLen = EmptySample vd := by
  have hlen : vd.sampleLen = 0 ↔ vd.sampleLen.toNat = 0 := BitVec.toNat_inj.symm
  simp only [emptySample, EmptySample, boundBase_of_fits h, hlen]

/-- The 17 bits of the end cursor hold `sample_len + 1` for the longest sample too. -/
theorem endCursor_toNat (sampleLen : U16) : (endCursor sampleLen).toNat = sampleLen.toNat + 1 := by
  unfold endCursor
  bv_omega

theorem endCursor_eq_ofNat (sampleLen : U16) : endCursor sampleLen = BitVec.ofNat 17 (sampleLen.toNat + 1) := by
  rw [← endCursor_toNat, BitVec.ofNat_toNat, BitVec.setWidth_eq]

theorem deltaTrigger_of_fits {vd : VoiceDef} {s : State} (h : vd.fits s.cfg = true) :
    deltaTrigger vd.sampleBase vd.sampleLen s = { s with
      base := vd.sampleBase
      pos := if EmptySample vd then 0 else 1
      end_pos := if EmptySample vd then 0 else endCursor vd.sampleLen
      byte_buf := 0, sym_cnt := 0, recon_1 := 0, recon_2 := 0, modifier := s.cfg.modReset } := by
  simp only [deltaTrigger, boundBase_of_fits h, emptySample_of_fits h]

/-- R130: the unsigned `initial` stays what it is in the signed accumulator. -/
theorem toInt_setWidth_32 (initial : U16) : (initial.setWidth 32).toInt = initial.toNat := by
  rw [BitVec.toInt_setWidth]
  have hlt := initial.isLt
  exact Int.bmod_eq_of_le (by omega) (by omega)

/-! ### The state a voice is loaded into (R145) -/

/-- The `TRIGGER` column of R31, for the operand `vd`; what is no core register stays. -/
def voiceLoaded (vd : VoiceDef) (s : State) : State :=
  { s with
    base := vd.sampleBase
    pos := if EmptySample vd then 0 else 1
    end_pos := if EmptySample vd then 0 else endCursor vd.sampleLen
    byte_buf := 0, sym_cnt := 0, recon_1 := 0, recon_2 := 0, modifier := s.cfg.modReset
    a2 := vd.a2, a3 := vd.a3, b1 := vd.b1, b2 := vd.b2, b3 := vd.b3
    xn_1 := 0, xn_2 := 0, yn_1 := 0, yn_2 := 0
    treble_amp := vd.initial.setWidth 32, treble_step := vd.increment, bass_0 := 0, bass_1 := 0 }

theorem exec_trigger_of_fits {vd : VoiceDef} {s : State} (h : vd.fits s.cfg = true) :
    exec (.trigger vd) s = .next (voiceLoaded vd s) := by
  rw [exec, execTrigger, deltaTrigger_of_fits h]
  rfl

/-! ### The status values after the load (R29) -/

theorem bassActive_voiceLoaded (vd : VoiceDef) (s : State) :
    bassActive (voiceLoaded vd s) = !EmptySample vd := by
  rw [Bool.eq_iff_iff, bassActive_iff]
  cases he : EmptySample vd with
  | true => simp [voiceLoaded, he]
  | false =>
    have hlen : 0 < vd.sampleLen.toNat := by
      simp only [EmptySample, Bool.or_eq_false_iff, decide_eq_false_iff_not] at he
      omega
    simp [voiceLoaded, he, endCursor_toNat, hlen]

theorem trebleActive_voiceLoaded (vd : VoiceDef) (s : State) :
    trebleActive (voiceLoaded vd s) = decide (0 < vd.initial.toNat) := by
  rw [trebleActive, voiceLoaded, toInt_setWidth_32]
  exact decide_eq_decide.2 Int.natCast_pos

theorem idle_voiceLoaded (vd : VoiceDef) (s : State) :
    idle (voiceLoaded vd s) = (EmptySample vd && decide (vd.initial.toNat = 0)) := by
  rw [idle, bassActive_voiceLoaded, trebleActive_voiceLoaded, Bool.not_not, ← decide_not]
  simp only [Nat.not_lt, Nat.le_zero]

/-- Settles O38: on a well-formed operand the loaded state is the `TRIGGER` column, and the status follows from it. -/
theorem triggerLoadsTheVoice : Obligations.TriggerLoadsTheVoice := by
  intro vd s hfits
  refine ⟨voiceLoaded vd s, exec_trigger_of_fits hfits, ?_, bassActive_voiceLoaded vd s, trebleActive_voiceLoaded vd s,
    idle_voiceLoaded vd s⟩
  rw [voiceLoaded, endCursor_eq_ofNat, ← BitVec.ofNat_toNat]

end Sys2Proof.Machine
end

section
/-! SUPPORT. The round trip of 30_encoding.md: a voice definition comes back out of its record, a record out of the voice
definition read from it (R71), and the words of each instruction decode to it (R70, R73). -/

namespace Sys2Proof

/-! ### The operand record (R71) -/

/-- On an operand that fits its lines no field loses a bit, so each comes back as it was. -/
theorem decodeVoiceDef_encodeVoiceDef {cfg : Config} {vd : VoiceDef} (h : vd.fits cfg = true) :
    decodeVoiceDef cfg.addrW (encodeVoiceDef cfg.addrW vd) = vd := by
  have hbase : vd.sampleBase % 2 ^ cfg.addrW = vd.sampleBase := Nat.mod_eq_of_lt (of_decide_eq_true h)
  simp only [decodeVoiceDef, encodeVoiceDef, VoiceDef.fields, takeField_packFields, hbase, BitVec.ofNat_toNat,
    BitVec.toNat_mod_cancel, BitVec.setWidth_eq]

/-- Packing a taken field before the lines that were above it gives the record back. -/
theorem packFields_cons_takeField {w record : Nat} {fs : List (Nat × Nat)}
    (h : packFields fs = (takeField w record).2) : packFields ((w, (takeField w record).1) :: fs) = record := by
  rw [packFields, h, takeField, Nat.mod_mod, Nat.mod_add_div]

/-- A record of the port's width has no line above `sample_len`, so its nine fields are all of it. -/
theorem encodeVoiceDef_decodeVoiceDef {addrW record : Nat} (h : record < 2 ^ operandWidth addrW) :
    encodeVoiceDef addrW (decodeVoiceDef addrW record) = record := by
  have hrest : record / 2 ^ 16 / 2 ^ 16 / 2 ^ 8 / 2 ^ 8 / 2 ^ 8 / 2 ^ 8 / 2 ^ 8 / 2 ^ addrW / 2 ^ 16 = 0 := by
    simp only [Nat.div_div_eq_div_mul, ← pow_add]
    exact Nat.div_eq_of_lt (by rwa [operandWidth, show 88 + addrW = 16 + 16 + 8 + 8 + 8 + 8 + 8 + addrW + 16 by omega] at h)
  have hbits : ∀ n r : Nat, (BitVec.ofNat n (takeField n r).1).toNat = (takeField n r).1 := fun n r => by
    rw [BitVec.toNat_ofNat, takeField, Nat.mod_mod]
  simp only [encodeVoiceDef, VoiceDef.fields, decodeVoiceDef, hbits]
  iterate 9 apply packFields_cons_takeField
  exact hrest.symm

/-! ### The words of the instructions (R70, R73) -/

/-- The words of a symbol are its row of the opcode table. -/
theorem decode_encode_toInstr (cfg : Config) (d : DeltaSymbol) :
    decode cfg (encode cfg d.toInstr) = .ok d.toInstr := by
  cases d with
  | keep => exact decode_sym2 cfg (code := 0) (by decide)
  | neg => exact decode_sym2 cfg (code := 1) (by decide)
  | dbl => exact decode_sym2 cfg (code := 2) (by decide)
  | hlv => exact decode_sym2 cfg (code := 3) (by decide)

theorem decode_encode_trigger {cfg : Config} {vd : VoiceDef} (h : vd.fits cfg = true) :
    decode cfg (encode cfg (.trigger vd)) = .ok (.trigger vd) := by
  rw [encode, decode_cmd cfg (by decide) (encodeVoiceDef_lt cfg.addrW vd), decodeCommand, if_pos rfl,
    decodeVoiceDef_encodeVoiceDef h]

theorem decode_encode_decodeBlock (cfg : Config) : decode cfg (encode cfg .decodeBlock) = .ok .decodeBlock :=
  decode_cmd cfg (by decide) (Nat.two_pow_pos _)

/-- Settles O1: by the instruction; only the operand of `TRIGGER` asks for well-formedness. -/
theorem decodeOfEncodeIsTheInstruction : Obligations.DecodeOfEncodeIsTheInstruction := by
  intro cfg i hwf
  cases i with
  | keep => exact decode_encode_toInstr cfg .keep
  | neg => exact decode_encode_toInstr cfg .neg
  | dbl => exact decode_encode_toInstr cfg .dbl
  | hlv => exact decode_encode_toInstr cfg .hlv
  | trigger vd => exact decode_encode_trigger hwf
  | decodeBlock => exact decode_encode_decodeBlock cfg

/-- Settles O2: what is decoded fits its lines, and its nine fields packed again are the record. -/
theorem encodeOfDecodedTriggerIsItsRecord : Obligations.EncodeOfDecodedTriggerIsItsRecord := by
  intro cfg record hrecord
  refine ⟨decodeCommand_wellFormed cfg 0#1 record, ?_⟩
  rw [decodeCommand, if_pos rfl, encode, encodeVoiceDef_decodeVoiceDef hrecord]

/-- Settles O3: the decoder evaluated on the written words, P4's record among them. -/
theorem specWordsDecode : Obligations.SpecWordsDecode := by
  unfold Obligations.SpecWordsDecode
  decide

end Sys2Proof
end

section
/-! SUPPORT. The layers below the commands: the position `DeltaGet` moves (R24) and the frame of the symbols (R96 to R100),
one draw of the port (R56), the bounds of a ramp (R113), the filter's terms under both readings of the product (R122), and
the block amplitude (R77). -/

namespace Sys2Proof.Machine

open Sys2Proof.Safety

/-! ### The position of the decoder (R24) -/

/-- Settles O13: below the end cursor the position's increment does not wrap, and the fetched four symbols lose the one
extracted. -/
theorem deltaGetAdvancesOneSymbol : Obligations.DeltaGetAdvancesOneSymbol := by
  intro s ha
  have hpos := (bassActive_iff s).1 ha
  have hend := s.end_pos.isLt
  refine ⟨afterGet s, deltaGet_active ha, fun h0 => ?_, fun h0 => ?_⟩
  · rw [afterGet_pos, afterGet_sym_cnt, fetch_pos, fetch_sym_cnt, if_pos h0, if_pos h0]
    exact ⟨by bv_omega, rfl⟩
  · rw [afterGet_pos, afterGet_sym_cnt, fetch_pos, fetch_sym_cnt, if_neg h0, if_neg h0]
    exact ⟨rfl, by bv_omega⟩

/-- A symbol changes the step size and the reconstruction history alone. -/
theorem exec_toInstr_frame {d : DeltaSymbol} {s t : State} (h : exec d.toInstr s = .next t) :
    t = { s with modifier := t.modifier, recon_1 := t.recon_1, recon_2 := t.recon_2 } := by
  obtain ⟨u, hu, -, -, -, hframe⟩ := exec_toInstr_reconstructs d s
  obtain rfl := Host.Outcome.next.inj (hu.symm.trans h)
  exact hframe

/-- Settles O19: the frame of the reconstruction holds the memory too. -/
theorem symbolsChangeOnlyTheReconstruction : Obligations.SymbolsChangeOnlyTheReconstruction := by
  intro i hi s t h
  obtain ⟨d, rfl⟩ := (mem_symbols_iff i).1 hi
  have hframe := exec_toInstr_frame h
  exact ⟨fun a => by rw [hframe], hframe⟩

/-! ### The port and the ramp (R56, R113) -/

/-- Settles O21: the answer is draw 0, and the port after it is the port moved on by one. -/
theorem rngByteConsumesOneAnswer : Obligations.RngByteConsumesOneAnswer := fun s =>
  ⟨nextDraw_eq s, drawAt_rngByte s, congrArg Prod.snd (rngByte_eq s)⟩

/-- The value of `v` lies in `lo` to `hi`. -/
def Within (lo hi : Int) (v : S8) : Prop := lo ≤ v.toInt ∧ v.toInt ≤ hi

/-- The floor of half a sum of two values of a range, with or without the dither bit, does not leave the range. -/
theorem within_average {lo hi : Int} {a b : S8} (ha : Within lo hi a) (hb : Within lo hi b) (w : U8) (j : Nat) :
    Within lo hi (average a b (ditherBit w j)) := by
  obtain ⟨ha1, ha2⟩ := ha
  obtain ⟨hb1, hb2⟩ := hb
  have hd := ditherBit_cases w j
  rw [Within, average_ditherBit_toInt]
  omega

/-- Each point of a ramp is an end or an average of two earlier points. -/
theorem within_lerpPoints {lo hi : Int} {start stop : S8} (h0 : Within lo hi start) (h8 : Within lo hi stop) (w : U8)
    (i : Fin 8) : Within lo hi (lerpPoints start stop w)[i] := by
  have h4 := within_average h0 h8 w 0
  have h2 := within_average h0 h4 w 1
  have h6 := within_average h4 h8 w 2
  fin_cases i
  exacts [h0, within_average h0 h2 w 3, h2, within_average h2 h4 w 4, h4, within_average h4 h6 w 5, h6,
    within_average h6 h8 w 6]

/-- Settles O24: both ends lie in the range from the lesser to the greater, so every point does. -/
theorem lerpStaysBetweenItsEnds : Obligations.LerpStaysBetweenItsEnds := fun _ _ w i =>
  within_lerpPoints ⟨min_le_left _ _, le_max_left _ _⟩ ⟨min_le_right _ _, le_max_right _ _⟩ w i

/-! ### The filter under both readings (R122) -/

/-- R122, the other reading: the product is cut before the shift. -/
theorem filterTerm_productCutTo16 (c : S8) (x : S16) (k : Nat) :
    filterTerm .productCutTo16 c x k = signed16 (c.toInt * x.toInt) / 2 ^ k := by
  rw [filterTerm, filterProduct, wrapS_16_toInt, asr]

/-- Settles O28: under the other reading each term of the wrapped sum is a cut product's floor. -/
theorem filterGetStepWithCutProducts : Obligations.FilterGetStepWithCutProducts := by
  intro x s hcut
  refine ⟨?_, filterGet_snd x s⟩
  rw [filterGet_fst, filterOutput_toInt, hcut]
  simp only [filterTerm_productCutTo16]
  norm_num

/-- The cut changes no product of 16 bits. -/
theorem filterTerm_readings_agree {c : S8} {x : S16} (h : -32768 ≤ c.toInt * x.toInt ∧ c.toInt * x.toInt ≤ 32767)
    (k : Nat) : filterTerm .fullProduct c x k = filterTerm .productCutTo16 c x k := by
  rw [filterTerm_fullProduct, filterTerm_productCutTo16, signed16_of_range h]

/-- Settles O29: two signed bytes have a product of 16 bits. -/
theorem productReadingsAgreeOnSmallProducts : Obligations.ProductReadingsAgreeOnSmallProducts := by
  refine ⟨fun c x k hx => ?_, fun c x k hlow hhigh => filterTerm_readings_agree ⟨hlow, by omega⟩ k⟩
  obtain ⟨hx1, hx2⟩ := hx
  obtain ⟨hc1, hc2⟩ := s8_range c
  have hprod := product_range (c := c.toInt) (x := x.toInt) (b := 128) ⟨hc1, by omega⟩ ⟨hx1, by omega⟩
  exact filterTerm_readings_agree (by omega) k

theorem filterTerm_zero (reading : ProductReading) (x : S16) (k : Nat) : filterTerm reading 0 x k = 0 := by
  cases reading with
  | fullProduct => simp [filterTerm_fullProduct]
  | productCutTo16 => simp [filterTerm_productCutTo16, signed16]

/-- Settles O30: every term has a coefficient of 0. -/
theorem zeroCoefficientsGiveZero : Obligations.ZeroCoefficientsGiveZero := by
  intro x s h2 h3 k1 k2 k3
  have hout : filterOutput x s = 0 := by
    apply BitVec.eq_of_toInt_eq
    rw [filterOutput_toInt, h2, h3, k1, k2, k3]
    simp only [filterTerm_zero]
    rfl
  rw [filterGet, hout]

/-! ### The block amplitude (R77, R132) -/

theorem amp8_eq (amp : S32) : amp8 amp = min (amp.toInt / 256) 255 := rfl

theorem amp8_range {amp : S32} (h : 0 < amp.toInt) : 0 ≤ amp8 amp ∧ amp8 amp ≤ 255 := by
  rw [amp8_eq]
  omega

/-- In the accumulator's 16 bits the clamp does not act. -/
theorem amp8_of_le {amp : S32} (h : amp.toInt ≤ 65535) : amp8 amp = amp.toInt / 256 := by
  rw [amp8_eq]
  omega

/-- Settles O31: the shift by 8 divides by 256. -/
theorem amplitudeIsTheClampedIntegerPart : Obligations.AmplitudeIsTheClampedIntegerPart := by
  intro amp hpos
  obtain ⟨h0, h255⟩ := amp8_range hpos
  exact ⟨amp8_eq amp, h0, h255, amp8_of_le⟩

end Sys2Proof.Machine
end

section
/-! SUPPORT. `DECODE_BLOCK` and the frame of the instructions (44_voice_renderer.md R145 to R152): the one next state of a
block, what its layers add (R135, R138, R142), what it advances and leaves, and its draws and accesses (R64, R150, R151). -/

namespace Sys2Proof.Machine

open Sys2Proof.Safety

theorem eq_afterBlock {s t : State} (h : exec .decodeBlock s = .next t) : t = afterBlock s :=
  (Host.Outcome.next.inj ((exec_decodeBlock s).symm.trans h)).symm

/-! ### The status values (R29) -/

theorem trebleActive_eq_false_iff (s : State) : trebleActive s = false ↔ s.treble_amp.toInt ≤ 0 := by
  rw [← Bool.not_eq_true, trebleActive_iff, not_lt]

theorem idle_iff (s : State) : idle s = true ↔ bassActive s = false ∧ trebleActive s = false := by
  simp [idle]

/-- An inactive decoder's cursor stays where it is. -/
theorem bassActive_afterBlock_of_inactive {s : State} (h : bassActive s = false) :
    bassActive (afterBlock s) = false := by
  rwa [bassActive, afterBlock_pos, if_neg (Bool.eq_false_iff.1 h), afterBlock_end_pos]

/-- An amplitude at zero or below is not lowered. -/
theorem trebleActive_afterBlock_of_inactive {s : State} (h : trebleActive s = false) :
    trebleActive (afterBlock s) = false := by
  rwa [trebleActive, afterBlock_treble_amp, if_neg (Bool.eq_false_iff.1 h)]

/-- Settles O47: an inactive layer stays inactive. -/
theorem decodeBlockOnlyClearsStatus : Obligations.DecodeBlockOnlyClearsStatus := by
  refine ⟨fun s t h => ?_, fun s => ?_⟩
  · rw [eq_afterBlock h]
    constructor
    · contrapose!
      simpa using bassActive_afterBlock_of_inactive
    · contrapose!
      simpa using trebleActive_afterBlock_of_inactive
  · rw [idle_iff, ← bassActive_iff, ← trebleActive_iff, Bool.not_eq_true, Bool.not_eq_true]

/-- Settles O44: neither path runs. -/
theorem idleBlockIsANoOp : Obligations.IdleBlockIsANoOp := by
  intro s hidle
  obtain ⟨hb, ht⟩ := (idle_iff s).1 hidle
  have hblock : afterBlock s = s := by
    rw [afterBlock, bassState_inactive hb, treblePath, if_neg (Bool.eq_false_iff.1 ht)]
  rw [exec_decodeBlock, hblock]

/-! ### What the layers add (R138, R135, R142) -/

/-- A ramp's point is a signed byte. -/
theorem bassPart_range (s : State) (i : Fin 8) : -128 ≤ (bassPart s i).toInt ∧ (bassPart s i).toInt ≤ 127 := by
  unfold bassPart
  split
  · rw [sext16_toInt]
    exact s8_range _
  · decide
  · decide

theorem treblePart_of_active {s : State} (h : trebleActive s = true) (i : Fin 8) :
    treblePart s i = trebleScale ((filterOutputs (noiseSamples s) s).getD i 0) (amp8 s.treble_amp) := if_pos h

/-- A filter output scaled by an amplitude of a byte (R134). -/
theorem treblePart_range (s : State) (i : Fin 8) :
    -32640 ≤ (treblePart s i).toInt ∧ (treblePart s i).toInt ≤ 32639 := by
  unfold treblePart
  split
  next h => exact trebleScale_range _ (amp8_range ((trebleActive_iff s).1 h))
  next => decide

/-- Settles O37: each part by its own bound. -/
theorem blockContributionsAreBounded : Obligations.BlockContributionsAreBounded := by
  intro s i
  obtain ⟨hb1, hb2⟩ := bassPart_range s i
  exact ⟨hb1, hb2, treblePart_range s i⟩

/-- Settles O41: the slots of the one next state. -/
theorem decodeBlockAddsTheActiveLayers : Obligations.DecodeBlockAddsTheActiveLayers := fun s =>
  ⟨_, exec_decodeBlock s, block_get s⟩

/-! ### What a block advances (R136, R138) -/

theorem afterBlock_treble_amp_of_active {s : State} (h : 0 < s.treble_amp.toInt) :
    (afterBlock s).treble_amp.toInt = s.treble_amp.toInt - s.treble_step.toNat := by
  rw [afterBlock_treble_amp_toInt, if_pos h]

theorem afterBlock_treble_amp_of_inactive {s : State} (h : trebleActive s = false) :
    (afterBlock s).treble_amp = s.treble_amp := by
  rw [afterBlock_treble_amp, if_neg (Bool.eq_false_iff.1 h)]

/-- Settles O34: the decay of the one next state. -/
theorem trebleDecaysLinearly : Obligations.TrebleDecaysLinearly := fun s =>
  ⟨_, exec_decodeBlock s, afterBlock_treble_amp_of_active, fun h =>
    afterBlock_treble_amp_of_inactive ((trebleActive_eq_false_iff s).2 h)⟩

/-- The decoder's registers after a block on an active decoder are those after one `DeltaGet`. -/
theorem afterBlock_decoder {s : State} (h : bassActive s = true) : DecoderAgrees (afterGet s) (afterBlock s) where
  base := by rw [afterBlock_base, afterGet_base]
  pos := by rw [afterBlock_pos, if_pos h]
  end_pos := by rw [afterBlock_end_pos, afterGet_end_pos]
  byte_buf := by rw [afterBlock_byte_buf, if_pos h]
  sym_cnt := by rw [afterBlock_sym_cnt, if_pos h]
  recon_1 := by rw [afterBlock_recon_1, if_pos h]
  recon_2 := by rw [afterBlock_recon_2, if_pos h]
  modifier := by rw [afterBlock_modifier, if_pos h]

/-- Settles O42: the decoder's registers by one `DeltaGet`, the treble layer's by the decay and the eight filter steps. -/
theorem decodeBlockAdvancesTheActiveLayers : Obligations.DecodeBlockAdvancesTheActiveLayers := by
  intro s
  refine ⟨_, exec_decodeBlock s, fun hb => ?_, fun ht => ?_⟩
  · obtain ⟨-, epos, -, ebuf, ecnt, er1, er2, emod⟩ := afterBlock_decoder hb
    refine ⟨afterGet s, deltaGet_active hb, epos, ebuf, ecnt, er1, er2, emod, ?_, ?_⟩
    · rw [afterBlock_bass_0, if_pos hb]
    · rw [afterBlock_bass_1, if_pos hb]
  · exact ⟨afterBlock_treble_amp_of_active ((trebleActive_iff s).1 ht), (block_history s).1 ht⟩

/-! ### What a block leaves (R55, R146) -/

/-- Settles O43: the frame of the one next state, field by field. -/
theorem decodeBlockFrame : Obligations.DecodeBlockFrame := by
  intro s t h
  rw [eq_afterBlock h]
  refine ⟨afterBlock_cfg s, afterBlock_base s, afterBlock_end_pos s, afterBlock_a2 s, afterBlock_a3 s, afterBlock_b1 s,
    afterBlock_b2 s, afterBlock_b3 s, afterBlock_treble_step s, afterBlock_host_in s, afterBlock_free_count s,
    fun a => by rw [afterBlock_sample_mem], fun hb => ?_, fun ht => ?_⟩
  · simp only [afterBlock_pos, afterBlock_byte_buf, afterBlock_sym_cnt, afterBlock_recon_1, afterBlock_recon_2,
      afterBlock_modifier, afterBlock_bass_0, afterBlock_bass_1, hb, Bool.false_eq_true, if_false, and_self]
  · exact ⟨afterBlock_treble_amp_of_inactive ht, (block_history s).2 ht⟩

/-! ### Draws and accesses (R64, R150, R151) -/

/-- Settles O45: the count of R150, written out by the two guards. -/
theorem blockDrawCount : Obligations.BlockDrawCount := by
  intro s
  have hn : blockDraws s =
      if bassActive s then (if trebleActive s then 9 else 1) else (if trebleActive s then 8 else 0) := by
    unfold blockDraws
    cases bassActive s <;> cases trebleActive s <;> rfl
  exact ⟨_, exec_decodeBlock s, hn ▸ afterBlock_rng_count s, hn ▸ afterBlock_rng_in s⟩

/-- Settles O46: a block's accesses are its two paths', and `TRIGGER` is a load of registers. -/
theorem commandAccessesInOrder : Obligations.CommandAccessesInOrder :=
  ⟨fun s => ⟨_, exec_decodeBlock s, block_events s⟩, fun _ _ => ⟨_, rfl, rfl, rfl, rfl⟩⟩

theorem trebleScale_zero (y : S16) : trebleScale y 0 = 0 := by
  simp [trebleScale, asr, wrapS]

/-- Settles O35: an amplitude of 0 scales every output to 0, and nothing else of the treble path depends on it. -/
theorem subUnitAmplitudeStillRuns : Obligations.SubUnitAmplitudeStillRuns := by
  intro s hpos hlt
  have ht : trebleActive s = true := (trebleActive_iff s).2 hpos
  have hamp : amp8 s.treble_amp = 0 := by rw [amp8_eq]; omega
  refine ⟨_, exec_decodeBlock s, hamp, fun i => ?_, ?_, afterBlock_treble_amp_of_active hpos, (block_history s).1 ht⟩
  · rw [block_get, treblePart_of_active ht, hamp, trebleScale_zero]
    exact BitVec.add_zero _
  · rw [afterBlock_rng_count, blockDraws, ht]
    cases bassActive s <;> rfl

/-! ### `TRIGGER`, and every instruction -/

/-- Settles O39: the load reads the parameters alone and writes every core register. -/
theorem triggerForgetsTheOldVoice : Obligations.TriggerForgetsTheOldVoice := by
  intro vd s s' hcfg hbuf hmem hevents hhost hrng hcount hfree
  have hsame : s' = { s' with
      cfg := s.cfg, buf := s.buf, sample_mem := s.sample_mem, events := s.events, host_in := s.host_in
      rng_in := s.rng_in, rng_count := s.rng_count, free_count := s.free_count } := by
    rw [← hcfg, ← hbuf, ← hmem, ← hevents, ← hhost, ← hrng, ← hcount, ← hfree]
  rw [hsame]
  rfl

/-- Settles O40: the load names no field but core registers. -/
theorem triggerTouchesRegistersOnly : Obligations.TriggerTouchesRegistersOnly := by
  intro vd s t h
  obtain rfl := Host.Outcome.next.inj h
  exact ⟨rfl, fun _ => rfl, rfl, rfl, rfl, rfl, rfl, rfl, rfl⟩

/-- Settles O51: by the instruction, from the frames of the symbols, the load and the block. -/
theorem noInstructionWritesSampleMemory : Obligations.NoInstructionWritesSampleMemory := by
  intro i s t h
  have symbol : ∀ d : DeltaSymbol, exec d.toInstr s = .next t →
      t.sample_mem = s.sample_mem ∧ t.cfg = s.cfg ∧ t.host_in = s.host_in := fun d hd => by
    rw [exec_toInstr_frame hd]
    exact ⟨rfl, rfl, rfl⟩
  have frame : t.sample_mem = s.sample_mem ∧ t.cfg = s.cfg ∧ t.host_in = s.host_in := by
    cases i with
    | keep => exact symbol .keep h
    | neg => exact symbol .neg h
    | dbl => exact symbol .dbl h
    | hlv => exact symbol .hlv h
    | trigger vd =>
      obtain ⟨-, -, hmem, -, -, -, hhost, hcfg, -⟩ := triggerTouchesRegistersOnly vd s t h
      exact ⟨hmem, hcfg, hhost⟩
    | decodeBlock =>
      rw [eq_afterBlock h]
      exact ⟨afterBlock_sample_mem s, afterBlock_cfg s, afterBlock_host_in s⟩
  exact ⟨fun a => by rw [frame.1], frame⟩

end Sys2Proof.Machine
end

section
/-! SUPPORT. What a block does not depend on: the content of the slots, which it only adds to (R140), and the header byte of
the sample, which it never reads (R103). -/

namespace Sys2Proof.Machine

open Sys2Proof.Safety

/-! ### The content of the slots (R140) -/

/-- The two states differ in `BUF` and the history of accesses at most. -/
def SameButSlots (s t : State) : Prop := ∃ b e, t = { s with buf := b, events := e }

theorem SameButSlots.eq {s t : State} (h : SameButSlots s t) : t = { s with buf := t.buf, events := t.events } := by
  obtain ⟨b, e, rfl⟩ := h
  rfl

theorem SameButSlots.fetch {s t : State} (h : SameButSlots s t) : SameButSlots (fetch s) (fetch t) := by
  obtain ⟨b, e, rfl⟩ := h
  unfold Machine.fetch fetchByte
  split
  · split <;> exact ⟨_, _, rfl⟩
  · exact ⟨_, _, rfl⟩

/-- The decoder reads no slot (R93). -/
theorem SameButSlots.afterBassGet {s t : State} (h : SameButSlots s t) :
    SameButSlots (afterBassGet s) (afterBassGet t) := by
  obtain ⟨b, e, hfetch⟩ := h.fetch
  obtain ⟨b', e', rfl⟩ := h
  unfold Machine.afterBassGet afterGet
  rw [hfetch]
  exact ⟨_, _, rfl⟩

theorem SameButSlots.mixAdd {s t : State} (h : SameButSlots s t) (i : Fin 8) (v : S16) :
    SameButSlots (mixAdd i v s) (mixAdd i v t) := by
  obtain ⟨b, e, rfl⟩ := h
  exact ⟨_, _, rfl⟩

theorem SameButSlots.rngByte {s t : State} (h : SameButSlots s t) : SameButSlots (rngByte s).2 (rngByte t).2 := by
  obtain ⟨b, e, rfl⟩ := h
  exact ⟨_, _, rfl⟩

theorem bassRamp_eq (s : State) :
    bassRamp s = mixRamp (lerpPoints s.bass_1 s.bass_0 (nextDraw s)) (rngByte s).2 := rfl

theorem SameButSlots.bassRamp {s t : State} (h : SameButSlots s t) : SameButSlots (bassRamp s) (bassRamp t) := by
  have hpoints : lerpPoints t.bass_1 t.bass_0 (nextDraw t) = lerpPoints s.bass_1 s.bass_0 (nextDraw s) := by
    rw [h.eq]
    rfl
  rw [bassRamp_eq, bassRamp_eq, hpoints]
  exact List.foldl_rel h.rngByte fun i _ _ _ hc => hc.mixAdd i _

theorem SameButSlots.treblePosition {s t : State} (h : SameButSlots s t) (amp : Int) (i : Fin 8) :
    SameButSlots (treblePosition amp s i) (treblePosition amp t i) := by
  obtain ⟨b, e, rfl⟩ := h
  exact ⟨_, _, rfl⟩

theorem SameButSlots.trebleDecay {s t : State} (h : SameButSlots s t) :
    SameButSlots (trebleDecay s) (trebleDecay t) := by
  obtain ⟨b, e, rfl⟩ := h
  exact ⟨_, _, rfl⟩

theorem SameButSlots.trebleBlock {s t : State} (h : SameButSlots s t) :
    SameButSlots (trebleBlock s) (trebleBlock t) := by
  have hamp : t.treble_amp = s.treble_amp := by rw [h.eq]
  unfold Machine.trebleBlock
  rw [hamp]
  exact SameButSlots.trebleDecay (List.foldl_rel h fun i _ _ _ hc => hc.treblePosition (amp8 s.treble_amp) i)

theorem SameButSlots.bassState {s t : State} (h : SameButSlots s t) : SameButSlots (bassState s) (bassState t) := by
  have hactive : bassActive t = bassActive s := by rw [h.eq]; rfl
  unfold Machine.bassState
  rw [hactive]
  split
  · exact h.afterBassGet.bassRamp
  · exact h

/-- Both paths of a block read no slot but the one they add to. -/
theorem SameButSlots.afterBlock {s t : State} (h : SameButSlots s t) : SameButSlots (afterBlock s) (afterBlock t) := by
  have hactive : trebleActive (Machine.bassState t) = trebleActive (Machine.bassState s) := by rw [h.bassState.eq]; rfl
  unfold Machine.afterBlock treblePath
  rw [hactive]
  split
  · exact h.bassState.trebleBlock
  · exact h.bassState

theorem bassPart_with_buf (s : State) (b : Vector S16 8) (i : Fin 8) :
    bassPart { s with buf := b } i = bassPart s i := by
  cases h : bassActive s with
  | false => rw [bassPart, bassPart, deltaGet_inactive h, deltaGet_inactive (s := { s with buf := b }) h]
  | true =>
    have hget : DecoderAgrees (afterGet s) (afterGet { s with buf := b }) :=
      DecoderAgrees.after_deltaGet ⟨rfl, rfl, rfl, rfl, rfl, rfl, rfl, rfl⟩ rfl (fun _ => rfl) h
    rw [bassPart, bassPart, deltaGet_active h, deltaGet_active (s := { s with buf := b }) h]
    simp only [hget.recon_1]
    rfl

theorem noiseSamples_with_buf (s : State) (b : Vector S16 8) : noiseSamples { s with buf := b } = noiseSamples s := by
  have hdither : ditherDraws { s with buf := b } = ditherDraws s := rfl
  simp only [noiseSamples, drawAt, hdither]

theorem filterOutputs_with_buf (s : State) (b : Vector S16 8) (xs : List S16) :
    filterOutputs xs { s with buf := b } = filterOutputs xs s :=
  filterOutputs_congr (s := s) (t := { s with buf := b }) ⟨rfl, rfl, rfl, rfl, rfl, rfl, rfl, rfl, rfl, rfl⟩ xs

theorem treblePart_with_buf (s : State) (b : Vector S16 8) (i : Fin 8) :
    treblePart { s with buf := b } i = treblePart s i := by
  have hactive : trebleActive { s with buf := b } = trebleActive s := rfl
  rw [treblePart, treblePart, hactive, noiseSamples_with_buf, filterOutputs_with_buf]

/-- What a block adds to a slot does not depend on what the slots held. -/
theorem block_get_with_buf (s : State) (b : Vector S16 8) (i : Fin 8) :
    (afterBlock { s with buf := b }).buf[i] = b[i] + (bassPart s i + treblePart s i) := by
  rw [block_get, bassPart_with_buf, treblePart_with_buf, BitVec.add_assoc]

/-- The difference a block makes to a slot is the two parts. -/
theorem block_get_sub (s : State) (i : Fin 8) : (afterBlock s).buf[i] - s.buf[i] = bassPart s i + treblePart s i := by
  rw [block_get, BitVec.add_assoc, BitVec.add_comm s.buf[i], BitVec.add_sub_cancel]

/-- Over a slot that holds 0 a block leaves the two parts. -/
theorem block_get_of_zero {s : State} {i : Fin 8} (h : s.buf[i] = 0) :
    (afterBlock s).buf[i] = bassPart s i + treblePart s i := by
  rw [block_get, h, BitVec.add_assoc]
  exact BitVec.zero_add _

/-- Settles O36: each slot gains the two parts, which depend on the voice alone. -/
theorem mixingIsAdditive : Obligations.MixingIsAdditive := by
  constructor
  · intro s b
    refine ⟨afterBlock s, afterBlock { s with buf := b }, exec_decodeBlock s, exec_decodeBlock _, fun i => ?_, ?_⟩
    · rw [block_get_sub s, ← bassPart_with_buf s b, ← treblePart_with_buf s b]
      exact block_get_sub { s with buf := b } i
    · exact SameButSlots.eq (SameButSlots.afterBlock ⟨b, s.events, rfl⟩)
  · intro sA sB _ hB
    refine ⟨afterBlock sA, afterBlock sB, afterBlock { sB with buf := (afterBlock sA).buf }, exec_decodeBlock sA,
      exec_decodeBlock sB, exec_decodeBlock _, fun i => ?_⟩
    rw [block_get_with_buf, block_get_of_zero (hB i)]

/-! ### The header byte (R103) -/

/-- A memory with the same byte at the cursor gives the same decoder: no other byte is read (R94). -/
theorem afterGet_with_sample_mem {s : State} {m : Memory} (ha : bassActive s = true)
    (h : s.sym_cnt = 0 → m.read (sampleAddress s) = s.sample_mem.read (sampleAddress s)) :
    afterGet { s with sample_mem := m } = { afterGet s with sample_mem := m } := by
  have hfetch : fetch { s with sample_mem := m } = { fetch s with sample_mem := m } := by
    by_cases h0 : s.sym_cnt = 0
    · rw [fetch_of_empty ha h0, fetch_of_empty (s := { s with sample_mem := m }) ha h0]
      simp only [sampleRead]
      rw [show sampleAddress { s with sample_mem := m } = sampleAddress s from rfl, h h0]
      rfl
    · rw [fetch_of_symbols h0, fetch_of_symbols (s := { s with sample_mem := m }) h0]
  unfold afterGet
  rw [hfetch]
  rfl

theorem bassRamp_with_sample_mem (s : State) (m : Memory) :
    bassRamp { s with sample_mem := m } = { bassRamp s with sample_mem := m } := by
  have hdraw : (rngByte { s with sample_mem := m }).2 = { (rngByte s).2 with sample_mem := m } := rfl
  have hnext : nextDraw { s with sample_mem := m } = nextDraw s := rfl
  rw [bassRamp_eq, bassRamp_eq, hdraw, hnext, mixRamp_with_sample_mem]

theorem treblePath_with_sample_mem (s : State) (m : Memory) :
    treblePath { s with sample_mem := m } = { treblePath s with sample_mem := m } := by
  have hactive : trebleActive { s with sample_mem := m } = trebleActive s := rfl
  unfold treblePath
  rw [hactive]
  split
  · exact trebleBlock_with_sample_mem s m
  · rfl

theorem bassState_with_sample_mem {s : State} {m : Memory}
    (h : bassActive s = true → s.sym_cnt = 0 → m.read (sampleAddress s) = s.sample_mem.read (sampleAddress s)) :
    bassState { s with sample_mem := m } = { bassState s with sample_mem := m } := by
  cases ha : bassActive s with
  | false => rw [bassState_inactive ha, bassState_inactive (s := { s with sample_mem := m }) ha]
  | true =>
    have hget : afterBassGet { s with sample_mem := m } = { afterBassGet s with sample_mem := m } := by
      rw [afterBassGet, afterGet_with_sample_mem ha (h ha)]
      rfl
    rw [bassState, if_pos (show bassActive { s with sample_mem := m } = true from ha), hget, bassRamp_with_sample_mem,
      bassState, if_pos ha]

/-- A block reads sample memory at the cursor alone, where it fetches. -/
theorem afterBlock_with_sample_mem {s : State} {m : Memory}
    (h : bassActive s = true → s.sym_cnt = 0 → m.read (sampleAddress s) = s.sample_mem.read (sampleAddress s)) :
    afterBlock { s with sample_mem := m } = { afterBlock s with sample_mem := m } := by
  rw [afterBlock, bassState_with_sample_mem h, treblePath_with_sample_mem]
  rfl

/-- The cursor of a sample that does not come round to its own header stands past the header byte (R91). -/
theorem sampleAddress_ne_base {s : State} (hinv : Inv s) (hround : s.end_pos.toNat ≤ 2 ^ s.cfg.addrW)
    (ha : bassActive s = true) : sampleAddress s ≠ s.base := by
  have hlt := (bassActive_iff s).1 ha
  have hpos := hinv.pos_pos (by omega)
  have hbase := hinv.base_lt
  rw [sampleAddress, wrapU]
  generalize 2 ^ s.cfg.addrW = size at *
  obtain h | h := Nat.lt_or_ge (s.base + s.pos.toNat) size
  · rw [Nat.mod_eq_of_lt h]
    omega
  · rw [Nat.mod_eq_sub_mod h, Nat.mod_eq_of_lt] <;> omega

/-- Settles O52: the block reads at the cursor, which never stands on the header byte. -/
theorem headerByteHasNoEffect : Obligations.HeaderByteHasNoEffect := by
  intro s b hinv hround
  refine ⟨_, exec_decodeBlock s, ?_⟩
  rw [exec_decodeBlock, afterBlock_with_sample_mem]
  intro ha _
  exact Memory.read_write_other _ (sampleAddress_ne_base hinv hround ha) b

end Sys2Proof.Machine
end

section
/-! SUPPORT. The blocks after a `TRIGGER` (44_voice_renderer.md R148): how many blocks the decoder stays active for (R103),
and the amplitude after each block (R137). -/

namespace Sys2Proof.Machine

open Sys2Proof.Safety

/-- Every block completes, so `k` of them are the `k`-fold iterate of one. -/
theorem blocks_eq (k : Nat) (s : State) : blocks k s = .next (afterBlock^[k] s) := by
  induction k generalizing s with
  | zero => rfl
  | succ k ih => rw [blocks, exec_decodeBlock, andThen, ih, Function.iterate_succ_apply]

/-! ### The bass layer (R103) -/

/-- The number of blocks until the decoder is inactive: the symbols left in the buffer, four for each byte still to fetch but
the last, whose fetch already moves the cursor to the end. -/
def bassBlocksLeft (s : State) : Nat :=
  if bassActive s then 4 * (s.end_pos.toNat - 1 - s.pos.toNat) + s.sym_cnt.toNat + 1 else 0

theorem bassActive_iff_blocksLeft (s : State) : bassActive s = true ↔ 0 < bassBlocksLeft s := by
  unfold bassBlocksLeft
  cases bassActive s <;> simp

/-- One block takes one symbol, or fetches a byte and takes the first of its four. -/
theorem bassBlocksLeft_afterBlock (s : State) : bassBlocksLeft (afterBlock s) = bassBlocksLeft s - 1 := by
  cases ha : bassActive s with
  | false =>
    rw [bassBlocksLeft, bassBlocksLeft, bassActive_afterBlock_of_inactive ha, ha]
    rfl
  | true =>
    obtain ⟨g, hg, hfetched, hleft⟩ := deltaGetAdvancesOneSymbol s ha
    obtain rfl := Host.Outcome.next.inj ((deltaGet_active ha).symm.trans hg)
    have hlt := (bassActive_iff s).1 ha
    simp only [bassBlocksLeft, bassActive, decide_eq_true_eq, (afterBlock_decoder ha).pos, (afterBlock_decoder ha).sym_cnt,
      afterBlock_end_pos, if_pos hlt]
    by_cases h0 : s.sym_cnt = 0
    · obtain ⟨hpos, hcnt⟩ := hfetched h0
      simp only [hpos, hcnt, h0, BitVec.ofNat_eq_ofNat, BitVec.toNat_ofNat]
      split <;> omega
    · obtain ⟨hpos, hcnt⟩ := hleft h0
      rw [hpos, hcnt, if_pos hlt]
      bv_omega

theorem bassBlocksLeft_iterate (k : Nat) (s : State) : bassBlocksLeft (afterBlock^[k] s) = bassBlocksLeft s - k := by
  induction k with
  | zero => rfl
  | succ k ih => rw [Function.iterate_succ_apply', bassBlocksLeft_afterBlock, ih, Nat.sub_sub]

/-- A voice of `L` data bytes has `4L - 3` blocks of bass. -/
theorem bassBlocksLeft_voiceLoaded (vd : VoiceDef) (s : State) :
    bassBlocksLeft (voiceLoaded vd s) = if EmptySample vd then 0 else 4 * vd.sampleLen.toNat - 3 := by
  rw [bassBlocksLeft, bassActive_voiceLoaded]
  cases he : EmptySample vd with
  | true => rfl
  | false =>
    have hlen : vd.sampleLen.toNat ≠ 0 := by
      simp only [EmptySample, Bool.or_eq_false_iff, decide_eq_false_iff_not] at he
      exact he.2
    simp only [voiceLoaded, he, Bool.not_false, Bool.false_eq_true, if_true, if_false, endCursor_toNat, BitVec.ofNat_eq_ofNat,
      BitVec.toNat_ofNat]
    omega

theorem bassActive_after_blocks (vd : VoiceDef) (s : State) (k : Nat) :
    bassActive (afterBlock^[k] (voiceLoaded vd s)) = true ↔
      EmptySample vd = false ∧ k < 4 * vd.sampleLen.toNat - 3 := by
  rw [bassActive_iff_blocksLeft, bassBlocksLeft_iterate, bassBlocksLeft_voiceLoaded]
  cases EmptySample vd <;> simp

/-! ### The treble layer (R137) -/

/-- The number of the first `k` blocks the treble path runs in, for the amplitude `A` and the step `I`. -/
def trebleBlocksRun (A I k : Nat) : Nat := if I = 0 then k else min k ((A + I - 1) / I)

/-- `ceil(A / I)` is the least number of steps that takes `A` to zero or below. -/
theorem lt_ceilDiv_iff {A I k : Nat} (hI : I ≠ 0) : k < (A + I - 1) / I ↔ k * I < A := by
  rw [Nat.lt_iff_add_one_le, Nat.le_div_iff_mul_le (Nat.pos_of_ne_zero hI), Nat.succ_mul]
  omega

/-- The staircase is above zero exactly as long as the treble path runs. -/
theorem staircase_pos_iff (A I k : Nat) :
    0 < (A : Int) - trebleBlocksRun A I k * I ↔ 0 < A ∧ (I = 0 ∨ k < (A + I - 1) / I) := by
  unfold trebleBlocksRun
  by_cases hI : I = 0
  · simp [hI]
  · have hceil : ¬ ((A + I - 1) / I) * I < A := by rw [← lt_ceilDiv_iff hI]; exact lt_irrefl _
    rw [if_neg hI, sub_pos]
    norm_cast
    obtain hk | hk := Nat.lt_or_ge k ((A + I - 1) / I)
    · have hA := (lt_ceilDiv_iff hI).1 hk
      rw [Nat.min_eq_left hk.le]
      exact ⟨fun _ => ⟨by omega, .inr hk⟩, fun _ => hA⟩
    · rw [Nat.min_eq_right hk]
      exact ⟨fun h => absurd h hceil, fun ⟨_, h⟩ => absurd h (by omega)⟩

/-- While the staircase is above zero the next block runs the treble path; from then on none does. -/
theorem trebleBlocksRun_succ (A I k : Nat) : (trebleBlocksRun A I (k + 1) : Int) * I =
    trebleBlocksRun A I k * I + if 0 < (A : Int) - trebleBlocksRun A I k * I then (I : Int) else 0 := by
  simp only [staircase_pos_iff]
  unfold trebleBlocksRun
  by_cases hI : I = 0
  · simp [hI]
  · rw [if_neg hI, if_neg hI]
    obtain hk | hk := Nat.lt_or_ge k ((A + I - 1) / I)
    · have hA := (lt_ceilDiv_iff hI).1 hk
      rw [if_pos ⟨by omega, .inr hk⟩, Nat.min_eq_left hk.le, Nat.min_eq_left hk]
      push_cast
      ring
    · rw [if_neg fun ⟨_, h⟩ => absurd h (by omega), Nat.min_eq_right hk, Nat.min_eq_right (by omega), add_zero]

theorem treble_step_iterate (k : Nat) (s : State) : (afterBlock^[k] s).treble_step = s.treble_step := by
  induction k with
  | zero => rfl
  | succ k ih => rw [Function.iterate_succ_apply', afterBlock_treble_step, ih]

/-- The law of R137 from any state with the amplitude `A`. -/
theorem treble_amp_iterate {A : Nat} {s : State} (hA : s.treble_amp.toInt = A) (k : Nat) :
    (afterBlock^[k] s).treble_amp.toInt =
      (A : Int) - trebleBlocksRun A s.treble_step.toNat k * s.treble_step.toNat := by
  induction k with
  | zero => simp [trebleBlocksRun, hA]
  | succ k ih =>
    rw [Function.iterate_succ_apply', afterBlock_treble_amp_toInt, ih, treble_step_iterate, trebleBlocksRun_succ]
    split <;> ring

theorem treble_amp_after_blocks (vd : VoiceDef) (s : State) (k : Nat) :
    (afterBlock^[k] (voiceLoaded vd s)).treble_amp.toInt =
      (vd.initial.toNat : Int) - trebleBlocksRun vd.initial.toNat vd.increment.toNat k * vd.increment.toNat :=
  treble_amp_iterate (s := voiceLoaded vd s) (toInt_setWidth_32 vd.initial) k

theorem trebleActive_after_blocks (vd : VoiceDef) (s : State) (k : Nat) :
    trebleActive (afterBlock^[k] (voiceLoaded vd s)) = true ↔ 0 < vd.initial.toNat ∧ (vd.increment.toNat = 0 ∨
      k < (vd.initial.toNat + vd.increment.toNat - 1) / vd.increment.toNat) := by
  rw [trebleActive_iff, treble_amp_after_blocks, staircase_pos_iff]

/-! ### The life of a voice (R148) -/

/-- Settles O49: the blocks left of the bass count down by one, and the treble runs while the staircase is above zero. -/
theorem lifeOfAVoice : Obligations.LifeOfAVoice := fun vd s hfits =>
  ⟨_, exec_trigger_of_fits hfits, fun k =>
    ⟨_, blocks_eq k _, bassActive_after_blocks vd s k, trebleActive_after_blocks vd s k⟩⟩

/-- While the treble layer is active it has run in every block. -/
theorem trebleBlocksRun_of_active {A I k : Nat} (h : 0 < A ∧ (I = 0 ∨ k < (A + I - 1) / I)) :
    trebleBlocksRun A I k = k := by
  unfold trebleBlocksRun
  split
  · rfl
  · omega

/-- Settles O50: the staircase, whose steps on an active layer are all the blocks; below 65536 no clamp acts. -/
theorem amplitudeStaircase : Obligations.AmplitudeStaircase := by
  intro vd s hfits _
  refine ⟨_, exec_trigger_of_fits hfits, fun k => ⟨_, blocks_eq k _, treble_amp_after_blocks vd s k, fun hactive => ?_⟩⟩
  have hamp := treble_amp_after_blocks vd s k
  rw [trebleBlocksRun_of_active ((trebleActive_after_blocks vd s k).1 hactive)] at hamp
  have hsteps : (0 : Int) ≤ k * vd.increment.toNat := by positivity
  have hinit := vd.initial.isLt
  rw [amp8_of_le (by omega), hamp]

end Sys2Proof.Machine
end

section
/-! SUPPORT. The step (00_scope.md R8, R9): what it answers for each action of the host, when it stops (R160, R162), how the
host's accesses and `rst` change the state (R28, R63, R180), and what leaves idle (R147). -/

namespace Sys2Proof.Machine

open Sys2Proof.Safety

/-! ### One action (R185) -/

theorem step_of_no_action {s : State} (h : s.host_in = []) : step s = .next s := by
  rw [step, h]

theorem step_of_action {s : State} {a : HostAction} {rest : List HostAction} (h : s.host_in = a :: rest) :
    step s = runAction a { s with host_in := rest } := by
  rw [step, h]

/-- Settles O8: the step's own case. -/
theorem noHostActionNoChange : Obligations.NoHostActionNoChange := fun _ => step_of_no_action

/-- Settles O6: the command is one of the actions. -/
theorem stepRunsThePresentedCommand : Obligations.StepRunsThePresentedCommand := fun _ _ _ _ h => step_of_action h

/-! ### When a step stops (R160, R162) -/

/-- The two commands of the port, each of which completes. -/
theorem exec_decodeCommand_completes (addrW : Nat) (cmd : BitVec 1) (operand : Nat) (s : State) :
    Completes (exec (decodeCommand addrW cmd operand) s) := by
  unfold decodeCommand
  split
  · exact execTrigger_completes _ s
  · exact ⟨_, exec_decodeBlock s⟩

/-- Every action but a write to sample memory completes. -/
theorem runAction_completes {a : HostAction} (h : ∀ x b, a ≠ .writeSample x b) (s : State) :
    Completes (runAction a s) := by
  cases a with
  | command cmd operand => exact exec_decodeCommand_completes _ cmd operand s
  | writeSlot i v => exact ⟨_, rfl⟩
  | readSlot i => exact ⟨_, rfl⟩
  | writeSample x b => exact absurd rfl (h x b)
  | reset => exact ⟨_, rfl⟩
  | resetWithCommand cmd operand => exact ⟨_, rfl⟩
  | resetDuringCommand cmd operand => exact ⟨_, rfl⟩

/-- A write to sample memory is refused on an active sample's byte, and else changes that byte alone (R63, R162). -/
theorem step_writeSample_cases {s : State} {a : Nat} {b : U8} {rest : List HostAction}
    (h : s.host_in = .writeSample a b :: rest) :
    (ActiveSampleByte s (a % 2 ^ s.cfg.addrW) ∧ step s = .refused .hostWriteToActiveSample) ∨
    (¬ ActiveSampleByte s (a % 2 ^ s.cfg.addrW) ∧ step s = .next (writeSampleByte a b { s with host_in := rest })) := by
  rw [step_of_action h]
  exact hostWriteSample_cases a b { s with host_in := rest }

theorem writesActiveSample_iff {s : State} {a : Nat} {b : U8} {rest : List HostAction}
    (h : s.host_in = .writeSample a b :: rest) :
    WritesActiveSample s ↔ ActiveSampleByte s (a % 2 ^ s.cfg.addrW) := by
  constructor
  · rintro ⟨a', b', rest', h', hbyte⟩
    obtain ⟨⟨rfl, rfl⟩, rfl⟩ : (a = a' ∧ b = b') ∧ rest = rest' := by simpa using h.symm.trans h'
    exact hbyte
  · exact fun hbyte => ⟨a, b, rest, h, hbyte⟩

/-- Settles O9: by whether the next action is a write to sample memory. -/
theorem onlyAWriteToAnActiveSampleStops : Obligations.OnlyAWriteToAnActiveSampleStops := by
  refine fun s => ⟨fun hnot => ?_, fun ⟨a, b, rest, h, hbyte⟩ => ?_⟩
  · cases h : s.host_in with
    | nil => exact ⟨_, step_of_no_action h⟩
    | cons action rest =>
      by_cases hwrite : ∃ x b, action = .writeSample x b
      · obtain ⟨x, b, rfl⟩ := hwrite
        obtain ⟨hbyte, -⟩ | ⟨-, hstep⟩ := step_writeSample_cases h
        · exact absurd ((writesActiveSample_iff h).2 hbyte) hnot
        · exact ⟨_, hstep⟩
      · rw [step_of_action h]
        exact runAction_completes (fun x b hb => hwrite ⟨x, b, hb⟩) _
  · obtain ⟨-, hstep⟩ | ⟨hfree, -⟩ := step_writeSample_cases h
    · exact hstep
    · exact absurd hbyte hfree

/-! ### The host's accesses (R28, R53, R63) -/

/-- A fetch before the end brings the byte at the cursor (R94). -/
theorem fetch_byte_buf_before_end {s : State} (h0 : s.sym_cnt = 0) (hend : s.pos ≠ s.end_pos) :
    (fetch s).byte_buf = s.sample_mem.read (sampleAddress s) := by
  rw [fetch_of_no_symbols h0, fetchByte_before_end hend]
  rfl

/-- Settles O53: the byte written reads back, and a fetch reads the memory as it stands. -/
theorem hostWriteIsSeenByLaterFetches : Obligations.HostWriteIsSeenByLaterFetches := by
  intro s a b rest hwf h
  obtain ⟨hbyte, hstep⟩ | ⟨hfree, hstep⟩ := step_writeSample_cases h
  · exact ⟨fun _ => hstep, fun hfree => absurd hbyte hfree⟩
  · refine ⟨fun hbyte => absurd hbyte hfree, fun _ => ⟨_, hstep, ?_⟩⟩
    have hread : (s.sample_mem.write (a % 2 ^ s.cfg.addrW) b).read (a % 2 ^ s.cfg.addrW) = b :=
      Memory.read_write_same _ hwf _ b
    refine ⟨hread, fun x hx => Memory.read_write_other _ hx b, rfl, fun u hmem h0 hend haddr => ?_⟩
    rw [fetch_byte_buf_before_end h0 hend, hmem, haddr]
    exact hread

/-- Settles O54: the laws of a vector's one changed place. -/
theorem hostAccessesOneSlot : Obligations.HostAccessesOneSlot := by
  refine ⟨fun s i v rest h => ⟨_, step_of_action h, ?_, fun j hj => ?_, rfl⟩, fun s i rest h => step_of_action h⟩
  · exact Vector.getElem_set_self i.isLt
  · exact Vector.getElem_set_ne i.isLt j.isLt fun hij => hj (Fin.ext hij.symm)

/-! ### Reset (R31, R180) -/

theorem registersReset_coreReset (s : State) : RegistersReset (coreReset s) :=
  ⟨rfl, rfl, rfl, rfl, rfl, rfl, rfl, rfl, rfl, rfl, rfl, rfl, rfl, rfl, rfl, rfl, rfl, rfl, rfl, rfl, rfl⟩

theorem bassActive_coreReset (s : State) : bassActive (coreReset s) = false := rfl

theorem trebleActive_coreReset (s : State) : trebleActive (coreReset s) = false := rfl

theorem idle_coreReset (s : State) : idle (coreReset s) = true :=
  (idle_iff _).2 ⟨bassActive_coreReset s, trebleActive_coreReset s⟩

theorem coreReset_reset : coreReset State.reset = State.reset := rfl

/-- Settles O55: the state after reset is itself what `rst` leaves. -/
theorem resetLeavesTheCoreIdle : Obligations.ResetLeavesTheCoreIdle := by
  unfold Obligations.ResetLeavesTheCoreIdle
  rw [← coreReset_reset]
  exact ⟨registersReset_coreReset _, bassActive_coreReset _, trebleActive_coreReset _, idle_coreReset _⟩

/-- Settles O56: both forms are the reset of the core registers. -/
theorem rstZeroesTheRegisters : Obligations.RstZeroesTheRegisters := by
  intro s rest h
  have hstep : step s = .next (coreReset { s with host_in := rest }) := by
    obtain h | ⟨cmd, operand, h⟩ := h
    · exact step_of_action h
    · exact step_of_action h
  exact ⟨_, hstep, registersReset_coreReset _, idle_coreReset _, rfl, rfl, rfl, rfl, rfl, rfl, rfl, rfl⟩

/-! ### `rst` during a command (R180) -/

/-- A `TRIGGER` and a block on an idle core are abandoned without a trace. -/
theorem abandonCommand_untouched {cmd : BitVec 1} {s : State} (h : cmd = 0#1 ∨ idle s = true) :
    abandonCommand cmd s = coreReset s := by
  rw [abandonCommand, if_neg]
  rintro ⟨rfl, hidle⟩
  obtain h | h := h
  · exact absurd h (by decide)
  · rw [hidle] at h
    exact absurd h (by decide)

theorem abandonCommand_block {s : State} (h : idle s = false) :
    abandonCommand 1#1 s = coreReset (abandonBlock s) := by
  rw [abandonCommand, if_pos ⟨rfl, h⟩]

/-- A 1-bit code is one of the two commands. -/
theorem command_cases (cmd : BitVec 1) : cmd = 0#1 ∨ cmd = 1#1 := by
  revert cmd
  decide

/-- An abandoned command is a reset, of the state itself or of what an abandoned block leaves. -/
theorem abandonCommand_cases (cmd : BitVec 1) (s : State) :
    ((cmd = 0#1 ∨ idle s = true) ∧ abandonCommand cmd s = coreReset s) ∨
    ((cmd = 1#1 ∧ idle s = false) ∧ abandonCommand cmd s = coreReset (abandonBlock s)) := by
  obtain rfl | rfl := command_cases cmd
  · exact .inl ⟨.inl rfl, abandonCommand_untouched (.inl rfl)⟩
  · cases h : idle s with
    | true => exact .inl ⟨.inr rfl, abandonCommand_untouched (.inr h)⟩
    | false => exact .inr ⟨⟨rfl, rfl⟩, abandonCommand_block h⟩

/-- Whatever was abandoned, sample memory stands unchanged behind the reset. -/
theorem abandonCommand_eq_coreReset (cmd : BitVec 1) (s : State) :
    ∃ u, abandonCommand cmd s = coreReset u ∧ u.sample_mem = s.sample_mem := by
  obtain ⟨-, h⟩ | ⟨-, h⟩ := abandonCommand_cases cmd s
  · exact ⟨s, h, rfl⟩
  · exact ⟨abandonBlock s, h, rfl⟩

/-- The accesses an abandoned block has made are the first few of its own, whatever the host does next. -/
theorem abandonedTrace_eq (s : State) (rest : List HostAction) :
    ∃ n, abandonedTrace { s with host_in := rest } = (bassEvents s ++ trebleEvents s).take n := by
  rw [abandonedTrace, blockTrace_eq, bassEvents_with_host_in, trebleEvents_with_host_in]
  exact ⟨_, rfl⟩

/-- A first part of a block's accesses holds no more draws than the block. -/
theorem take_blockEvents_draws_le (s : State) (n : Nat) :
    ((bassEvents s ++ trebleEvents s).take n).countP isDraw ≤ blockDraws s := by
  rw [← blockEvents_draws]
  exact (List.take_sublist n _).countP_le

/-- Settles O57: a command with nothing to abandon is a plain reset; an abandoned block's trace and slots survive the
reset. -/
theorem rstDuringACommandAbandonsIt : Obligations.RstDuringACommandAbandonsIt := by
  intro s cmd operand rest h
  have hstep := step_of_action h
  rw [runAction] at hstep
  obtain ⟨hcmd, habandon⟩ | ⟨⟨rfl, hidle⟩, habandon⟩ := abandonCommand_cases cmd { s with host_in := rest }
  · rw [habandon] at hstep
    refine ⟨_, hstep, registersReset_coreReset _, idle_coreReset _, rfl, rfl, rfl, Nat.le_add_right _ _,
      fun _ => ⟨rfl, rfl, rfl, rfl⟩, ?_⟩
    rintro rfl hidle
    obtain hcmd | hcmd := hcmd
    · exact absurd hcmd (by decide)
    · exact absurd (hcmd.symm.trans hidle) (by decide)
  · rw [habandon] at hstep
    obtain ⟨n, htrace⟩ := abandonedTrace_eq s rest
    refine ⟨_, hstep, registersReset_coreReset _, idle_coreReset _, rfl, rfl, rfl, ?_, ?_, fun _ _ => ⟨n, ?_⟩⟩
    · rw [coreReset_rng_count, abandonBlock_rng_count, htrace]
      exact Nat.add_le_add_left (take_blockEvents_draws_le s n) _
    · rintro (hcmd | hidle')
      · exact absurd hcmd (by decide)
      · exact absurd (hidle'.symm.trans hidle) (by decide)
    · refine ⟨?_, ?_, ?_, fun i huntouched => ?_⟩
      · rw [coreReset_events, abandonBlock_events, htrace]
      · rw [coreReset_rng_in, abandonBlock_rng_in, htrace]
      · rw [coreReset_rng_count, abandonBlock_rng_count, htrace]
      · refine abandonBlock_buf_untouched { s with host_in := rest } i ?_
        rw [htrace, List.any_eq_false]
        exact fun e he => Bool.eq_false_iff.1 (huntouched e he)

/-! ### What leaves idle (R105, R147) -/

/-- A layer active in `t` was active in `s`. -/
def OnlyClearsStatus (s t : State) : Prop :=
  (bassActive s = false → bassActive t = false) ∧ (trebleActive s = false → trebleActive t = false)

theorem onlyClearsStatus_coreReset (s t : State) : OnlyClearsStatus s (coreReset t) :=
  ⟨fun _ => bassActive_coreReset t, fun _ => trebleActive_coreReset t⟩

/-- Of all actions only a `TRIGGER` can make a layer active. -/
theorem runAction_onlyClearsStatus {a : HostAction} {s t : State} (ha : ∀ operand, a ≠ .command 0#1 operand)
    (h : runAction a s = .next t) : OnlyClearsStatus s t := by
  cases a with
  | command cmd operand =>
    obtain rfl | rfl := command_cases cmd
    · exact absurd rfl (ha operand)
    · rw [eq_afterBlock h]
      exact ⟨bassActive_afterBlock_of_inactive, trebleActive_afterBlock_of_inactive⟩
  | writeSlot i v =>
    obtain rfl := Host.Outcome.next.inj h
    exact ⟨id, id⟩
  | readSlot i =>
    obtain rfl := Host.Outcome.next.inj h
    exact ⟨id, id⟩
  | writeSample x b =>
    obtain ⟨-, hwrite⟩ | ⟨-, hwrite⟩ := hostWriteSample_cases x b s
    · exact absurd (hwrite.symm.trans h) (by simp)
    · obtain rfl := Host.Outcome.next.inj (hwrite.symm.trans h)
      exact ⟨id, id⟩
  | reset =>
    obtain rfl := Host.Outcome.next.inj h
    exact onlyClearsStatus_coreReset s _
  | resetWithCommand cmd operand =>
    obtain rfl := Host.Outcome.next.inj h
    exact onlyClearsStatus_coreReset s _
  | resetDuringCommand cmd operand =>
    obtain rfl := Host.Outcome.next.inj h
    obtain ⟨u, habandon, -⟩ := abandonCommand_eq_coreReset cmd s
    rw [habandon]
    exact onlyClearsStatus_coreReset s u

/-- Settles O48: by the action; idle is both layers inactive. -/
theorem onlyTriggerLeavesIdle : Obligations.OnlyTriggerLeavesIdle := by
  intro s t hnot h
  have hclear : OnlyClearsStatus s t := by
    cases hin : s.host_in with
    | nil =>
      obtain rfl := Host.Outcome.next.inj ((step_of_no_action hin).symm.trans h)
      exact ⟨id, id⟩
    | cons a rest =>
      rw [step_of_action hin] at h
      exact runAction_onlyClearsStatus (s := { s with host_in := rest })
        (fun operand ha => hnot operand rest (ha ▸ hin)) h
  obtain ⟨hbass, htreble⟩ := hclear
  refine ⟨fun hidle => ?_, hbass, htreble⟩
  obtain ⟨hb, ht⟩ := (idle_iff s).1 hidle
  exact (idle_iff t).2 ⟨hbass hb, htreble ht⟩

/-! ### A placed table word (log entry 12) -/

theorem step_withAction (s : State) (a : HostAction) : step (s.withAction a) = runAction a s := step_of_action rfl

/-- The decoder stands before the one data byte with no symbol left, so its fetch brings that byte. -/
theorem fetch_withDataByte {s : State} (hwf : Memory.wf s.sample_mem) (b : U8) :
    (fetch (s.withDataByte b)).byte_buf = b := by
  rw [fetch_byte_buf_before_end rfl (show (1 : U17) ≠ 2 by decide)]
  exact Memory.read_write_same _ hwf _ b

theorem bassActive_withDataByte (s : State) (b : U8) : bassActive (s.withDataByte b) = true :=
  (bassActive_iff _).2 (show (1 : U17).toNat < (2 : U17).toNat by decide)

theorem tableFormat_one {w : Nat} (h : w < 2) : tableFormat 1 w = some .cmd := by
  have hfits : ¬ 2 ^ 1 ≤ w := Nat.not_le.2 h
  rw [tableFormat, if_neg hfits, if_pos rfl]

theorem tableFormat_two {w : Nat} (h : w < 4) : tableFormat 2 w = some .sym2 := by
  have hfits : ¬ 2 ^ 2 ≤ w := Nat.not_le.2 h
  rw [tableFormat, if_neg hfits, if_neg (by decide), if_pos rfl]

/-- Settles O7: a command word is the next action; a symbol word is the lowest pair of the byte the next block fetches. -/
theorem placedTableWordRuns : Obligations.PlacedTableWordRuns := by
  intro s hwf
  refine ⟨fun w hw => ?_, fun w hw => ⟨?_, ?_⟩⟩
  · rw [State.withFetchWord, tableFormat_one hw]
    exact step_withAction s _
  · rw [State.withFetchWord, tableFormat_two hw]
    exact step_withAction _ _
  · have hcode : symbolCode (BitVec.ofNat 8 w) 0 = BitVec.ofNat 2 w := by
      rw [symbolCode_zero, BitVec.toNat_ofNat]
      congr 1
      omega
    obtain ⟨hget, -⟩ := (deltaGetRunsTheExtractedSymbol (s.withDataByte (BitVec.ofNat 8 w))).2
      ((bassActive_iff _).1 (bassActive_withDataByte s _))
    rw [hget, fetch_withDataByte hwf, hcode]

end Sys2Proof.Machine
end

section
/-! SUPPORT. The invariant of 10_state.md R32: what a reset, a `TRIGGER` and a `DECODE_BLOCK` make of it, and that every step
keeps it. -/

namespace Sys2Proof.Machine

open Sys2Proof.Safety

/-! ### Reset (R31, R180) -/

theorem byteRange_zero : ByteRange 0 := by decide

theorem inv_coreReset {s : State} (hwf : Memory.wf s.sample_mem) : Inv (coreReset s) where
  pos_le := le_refl 0
  end_le := Nat.zero_le _
  pos_pos := fun h => absurd rfl h
  sym_le := Nat.zero_le _
  buf_lt := Nat.one_pos
  xn_1_range := byteRange_zero
  xn_2_range := byteRange_zero
  amp_ge := by rw [coreReset_treble_amp]; decide
  amp_le := by rw [coreReset_treble_amp]; decide
  base_lt := Nat.two_pow_pos _
  null_empty := fun _ => rfl
  mem_wf := hwf

/-- Settles O58: the state after reset is what `rst` leaves of an empty memory. -/
theorem invHoldsAtReset : Obligations.InvHoldsAtReset :=
  inv_coreReset State.reset_mem_wf

/-! ### `TRIGGER` (R90, R91, R130) -/

theorem inv_voiceLoaded {vd : VoiceDef} {s : State} (hfits : vd.fits s.cfg = true) (hwf : Memory.wf s.sample_mem) :
    Inv (voiceLoaded vd s) := by
  have hinit := vd.initial.isLt
  have hlen := vd.sampleLen.isLt
  have hend : (voiceLoaded vd s).end_pos.toNat = if EmptySample vd then 0 else vd.sampleLen.toNat + 1 := by
    rw [← endCursor_toNat]
    unfold voiceLoaded
    split <;> rfl
  have hpos : (voiceLoaded vd s).pos.toNat = if EmptySample vd then 0 else 1 := by
    unfold voiceLoaded
    split <;> rfl
  have hamp : (voiceLoaded vd s).treble_amp.toInt = vd.initial.toNat := toInt_setWidth_32 vd.initial
  exact {
    pos_le := by rw [hend, hpos]; split <;> omega
    end_le := by rw [hend]; split <;> omega
    pos_pos := by rw [hend, hpos]; split <;> omega
    sym_le := Nat.zero_le _
    buf_lt := Nat.one_pos
    xn_1_range := byteRange_zero
    xn_2_range := byteRange_zero
    amp_ge := by omega
    amp_le := by omega
    base_lt := of_decide_eq_true hfits
    null_empty := fun hnull => by
      have hempty : EmptySample vd = true := Bool.or_eq_true_iff.2 (.inl (decide_eq_true hnull))
      rw [hend, if_pos hempty]
    mem_wf := hwf }

/-! ### `DECODE_BLOCK` (R32) -/

/-- The cursor moves towards the end cursor and never past it. -/
theorem afterBlock_pos_range {s : State} (h : Inv s) :
    s.pos.toNat ≤ (afterBlock s).pos.toNat ∧ (afterBlock s).pos.toNat ≤ s.end_pos.toNat := by
  have hle := h.pos_le
  cases ha : bassActive s with
  | false =>
    rw [afterBlock_pos, if_neg (Bool.eq_false_iff.1 ha)]
    omega
  | true =>
    have hlt := (bassActive_iff s).1 ha
    have hend := s.end_pos.isLt
    rw [afterBlock_pos, if_pos ha, afterGet_pos, fetch_pos]
    split
    · bv_omega
    · omega

/-- After a fetch the buffer holds 1 to 4 symbols and nothing above them. -/
theorem fetch_symbols_range {s : State} (h : Inv s) (ha : bassActive s = true) :
    1 ≤ (fetch s).sym_cnt.toNat ∧ (fetch s).sym_cnt.toNat ≤ 4 ∧
      (fetch s).byte_buf.toNat < 4 ^ (fetch s).sym_cnt.toNat := by
  rw [fetch_sym_cnt, fetch_byte_buf ha]
  by_cases h0 : s.sym_cnt = 0
  · rw [if_pos h0, if_pos h0]
    exact ⟨by decide, by decide, BitVec.isLt _⟩
  · rw [if_neg h0, if_neg h0]
    exact ⟨by bv_omega, Nat.le_succ_of_le h.sym_le, h.buf_lt⟩

/-- Of the symbols after the fetch one leaves the buffer. -/
theorem afterBlock_symbols_range {s : State} (h : Inv s) :
    (afterBlock s).sym_cnt.toNat ≤ 3 ∧ (afterBlock s).byte_buf.toNat < 4 ^ (afterBlock s).sym_cnt.toNat := by
  rw [afterBlock_sym_cnt, afterBlock_byte_buf]
  cases ha : bassActive s with
  | false => exact ⟨h.sym_le, h.buf_lt⟩
  | true =>
    obtain ⟨hpos, hle, hbuf⟩ := fetch_symbols_range h ha
    have hcnt : ((fetch s).sym_cnt - 1).toNat = (fetch s).sym_cnt.toNat - 1 := by bv_omega
    rw [if_pos rfl, if_pos rfl, afterGet_sym_cnt, afterGet_byte_buf, lsr_two_toNat, hcnt]
    refine ⟨by omega, Nat.div_lt_of_lt_mul ?_⟩
    rwa [← Nat.pow_succ', Nat.succ_eq_add_one, Nat.sub_add_cancel hpos]

theorem noiseSamples_getD_range (s : State) {k : Nat} (h : k < 8) : ByteRange ((noiseSamples s).getD k 0) := by
  have hk : (noiseSamples s).getD k 0 = noiseSample (drawAt s (ditherDraws s + k)) := by
    simp [noiseSamples, h]
  rw [hk]
  exact noiseSample_range _

/-- The filter's input history holds noise samples, or what it held. -/
theorem afterBlock_history_range {s : State} (h : Inv s) :
    ByteRange (afterBlock s).xn_1 ∧ ByteRange (afterBlock s).xn_2 := by
  obtain ⟨hactive, hinactive⟩ := block_history s
  cases ht : trebleActive s with
  | false =>
    obtain ⟨h1, h2, -, -⟩ := hinactive ht
    rw [h1, h2]
    exact ⟨h.xn_1_range, h.xn_2_range⟩
  | true =>
    obtain ⟨h1, h2, -, -⟩ := hactive ht
    rw [h1, h2]
    exact ⟨noiseSamples_getD_range s (by decide), noiseSamples_getD_range s (by decide)⟩

/-- A positive amplitude of 16 bits is lowered by at most 65535. -/
theorem afterBlock_amp_range {s : State} (h : Inv s) :
    -65535 ≤ (afterBlock s).treble_amp.toInt ∧ (afterBlock s).treble_amp.toInt ≤ 65535 := by
  have hge := h.amp_ge
  have hle := h.amp_le
  have hstep := s.treble_step.isLt
  rw [afterBlock_treble_amp_toInt]
  split <;> omega

theorem inv_afterBlock {s : State} (h : Inv s) : Inv (afterBlock s) where
  pos_le := by
    rw [afterBlock_end_pos]
    exact (afterBlock_pos_range h).2
  end_le := by
    rw [afterBlock_end_pos]
    exact h.end_le
  pos_pos := by
    rw [afterBlock_end_pos]
    exact fun hend => (h.pos_pos hend).trans (afterBlock_pos_range h).1
  sym_le := (afterBlock_symbols_range h).1
  buf_lt := (afterBlock_symbols_range h).2
  xn_1_range := (afterBlock_history_range h).1
  xn_2_range := (afterBlock_history_range h).2
  amp_ge := (afterBlock_amp_range h).1
  amp_le := (afterBlock_amp_range h).2
  base_lt := by
    rw [afterBlock_base, afterBlock_cfg]
    exact h.base_lt
  null_empty := by
    rw [afterBlock_base, afterBlock_end_pos]
    exact h.null_empty
  mem_wf := by
    rw [afterBlock_sample_mem]
    exact h.mem_wf

/-! ### Every step (R32) -/

theorem inv_exec_decodeCommand {s t : State} {cmd : BitVec 1} {operand : Nat} (hinv : Inv s)
    (h : exec (decodeCommand s.cfg.addrW cmd operand) s = .next t) : Inv t := by
  obtain rfl | rfl := command_cases cmd
  · have hfits := decodeVoiceDef_fits s.cfg operand
    obtain rfl := Host.Outcome.next.inj ((exec_trigger_of_fits hfits).symm.trans h)
    exact inv_voiceLoaded hfits hinv.mem_wf
  · rw [eq_afterBlock h]
    exact inv_afterBlock hinv

/-- The invariant speaks of neither slots nor accesses, so of the host's actions on a core it meets only a command, a write
to sample memory and `rst`. -/
theorem inv_runAction {a : HostAction} {s t : State} (hinv : Inv s) (h : runAction a s = .next t) : Inv t := by
  cases a with
  | command cmd operand => exact inv_exec_decodeCommand hinv h
  | writeSlot i v =>
    obtain rfl := Host.Outcome.next.inj h
    exact { hinv with }
  | readSlot i =>
    obtain rfl := Host.Outcome.next.inj h
    exact { hinv with }
  | writeSample x b =>
    obtain ⟨-, hwrite⟩ | ⟨-, hwrite⟩ := hostWriteSample_cases x b s
    · exact absurd (hwrite.symm.trans h) (by simp)
    · obtain rfl := Host.Outcome.next.inj (hwrite.symm.trans h)
      exact { hinv with mem_wf := Memory.write_wf _ hinv.mem_wf _ b }
  | reset =>
    obtain rfl := Host.Outcome.next.inj h
    exact inv_coreReset hinv.mem_wf
  | resetWithCommand cmd operand =>
    obtain rfl := Host.Outcome.next.inj h
    exact inv_coreReset hinv.mem_wf
  | resetDuringCommand cmd operand =>
    obtain rfl := Host.Outcome.next.inj h
    obtain ⟨u, habandon, hmem⟩ := abandonCommand_eq_coreReset cmd s
    rw [habandon]
    exact inv_coreReset (hmem ▸ hinv.mem_wf)

/-- Settles O59: by the host's next action; taking it from the list changes nothing the invariant speaks of. -/
theorem everyStepKeepsInv : Obligations.EveryStepKeepsInv := by
  intro s t hinv h
  cases hin : s.host_in with
  | nil =>
    obtain rfl := Host.Outcome.next.inj ((step_of_no_action hin).symm.trans h)
    exact hinv
  | cons a rest =>
    have htaken : Inv { s with host_in := rest } := { hinv with }
    exact inv_runAction htaken ((step_of_action hin).symm.trans h)

end Sys2Proof.Machine
end
